-- ==== Sys2Proof/Word.lean ====
section
/-! DEFINITION. The machine words of the MTP40C-PE: the widths that spec/10_state.md gives its registers
(decisions D7 and D8) and the 40-bit host command word of spec/30_encoding.md R60. -/

namespace Sys2Proof

/-- One byte of a buffer, a table, the stream, or an 8-bit register (R18, R42). -/
abbrev Byte := BitVec 8

/-- A 16-bit quantity: a CRC, a gas concentration, an hours value (R16, R92). -/
abbrev Half := BitVec 16

/-- A 32-bit quantity: `RESULT`, an operand, a binary32 pattern (R17, R27). -/
abbrev Word32 := BitVec 32

/-- A reading of the millisecond Clock, or a difference of two (`TIME_W` = 32, R6 and R49). -/
abbrev Time := BitVec 32

/-- The 40-bit host command word (R60). -/
abbrev CommandWord := BitVec 40

end Sys2Proof
end

