-- ==== Sys2Proof/Syntax.lean ====
section
/-! DEFINITION. The host commands: one constructor per row of spec/opcode_table.json, with the operand fields of its
format (spec/30_encoding.md R62, R66). -/

namespace Sys2Proof

/-- A host command. The operand formats are R62's: `A8` one address, `B1` one flag, `U16`, `U32`, `F32` one value,
`L8` a length, `LL` two lengths, `OB` an offset and a byte, `O8` an offset; the rest take no operand (`N`). -/
inductive Instr where
  | beginAddr (a : Byte)
  | isConnected
  | getAddress
  | setAddress (a : Byte)
  | setGenericAddress
  | setSpecificAddress
  | useSpecificAddress
  | getAirPressureReference
  | setAirPressureReference (v : Word32)
  | getGasConcentration
  | setSinglePointCorrection (v : Half)
  | getSinglePointCorrectionReady
  | openSelfCalibration
  | closeSelfCalibration
  | getSelfCalibrationStatus
  | setSelfCalibrationHours (h : Half)
  | getSelfCalibrationHours
  | setTimeout (ms : Word32)
  | getTimeout
  | suppressError (f : Bool)
  | getSuppressError
  | lastRead
  | getType
  | lastError
  | crc16 (n : Byte)
  | request (cl rl : Byte)
  | wrbuf (i b : Byte)
  | rdbuf (i : Byte)
  deriving DecidableEq, Repr

end Sys2Proof
end

