-- ==== Sys2Proof/Decode.lean ====
section
/-! DEFINITION. The host command word: decoder, encoder, and the mask and match rows of the command table
(spec/30_encoding.md R60 to R67). -/

namespace Sys2Proof

/-- Why a command word is illegal (R67). -/
inductive DecodeError where
  | unallocatedOpcode (opcode : Byte)
  | mustBeZeroBitSet (opcode : Byte)
  deriving DecidableEq, Repr

/-- `CMD[39:32]` (R61). -/
def opcodeOf (w : CommandWord) : Byte := w.extractLsb' 32 8

/-- `CMD[31:0]` (R61). -/
def operandOf (w : CommandWord) : Word32 := w.extractLsb' 0 32

/-- An operand whose bits from `n` up must be 0 (R62): the command where they are, an illegal word where not (R67). -/
def fmtLow (op : Byte) (v : Word32) (n : Nat) (i : Instr) : Except DecodeError Instr :=
  if v >>> n = 0 then .ok i else .error (.mustBeZeroBitSet op)

/-- The decoder, total on every 40-bit word: R66 for the opcodes, R62 for the operand formats, R67 for the rest. -/
def decode (w : CommandWord) : Except DecodeError Instr :=
  let op := opcodeOf w
  let v := operandOf w
  match op.toNat with
  | 0x01 => fmtLow op v 8 (.beginAddr (v.extractLsb' 0 8))
  | 0x02 => fmtLow op v 0 .isConnected
  | 0x10 => fmtLow op v 0 .getAddress
  | 0x11 => fmtLow op v 8 (.setAddress (v.extractLsb' 0 8))
  | 0x12 => fmtLow op v 0 .setGenericAddress
  | 0x13 => fmtLow op v 0 .setSpecificAddress
  | 0x14 => fmtLow op v 0 .useSpecificAddress
  | 0x20 => fmtLow op v 0 .getAirPressureReference
  | 0x21 => fmtLow op v 32 (.setAirPressureReference v)
  | 0x22 => fmtLow op v 0 .getGasConcentration
  | 0x30 => fmtLow op v 16 (.setSinglePointCorrection (v.extractLsb' 0 16))
  | 0x31 => fmtLow op v 0 .getSinglePointCorrectionReady
  | 0x32 => fmtLow op v 0 .openSelfCalibration
  | 0x33 => fmtLow op v 0 .closeSelfCalibration
  | 0x34 => fmtLow op v 0 .getSelfCalibrationStatus
  | 0x35 => fmtLow op v 16 (.setSelfCalibrationHours (v.extractLsb' 0 16))
  | 0x36 => fmtLow op v 0 .getSelfCalibrationHours
  | 0x40 => fmtLow op v 32 (.setTimeout v)
  | 0x41 => fmtLow op v 0 .getTimeout
  | 0x42 => fmtLow op v 1 (.suppressError (v.getLsbD 0))
  | 0x43 => fmtLow op v 0 .getSuppressError
  | 0x44 => fmtLow op v 0 .lastRead
  | 0x45 => fmtLow op v 0 .getType
  | 0x46 => fmtLow op v 0 .lastError
  | 0x50 => fmtLow op v 8 (.crc16 (v.extractLsb' 0 8))
  | 0x51 => fmtLow op v 16 (.request (v.extractLsb' 8 8) (v.extractLsb' 0 8))
  | 0x52 => fmtLow op v 16 (.wrbuf (v.extractLsb' 8 8) (v.extractLsb' 0 8))
  | 0x53 => fmtLow op v 8 (.rdbuf (v.extractLsb' 0 8))
  | _ => .error (.unallocatedOpcode op)

/-- A command word from its two fields (R61). -/
def commandWord (op : Byte) (v : Word32) : CommandWord := op ++ v

/-- The two byte fields of formats `LL` and `OB` (R62). -/
def twoBytes (hi lo : Byte) : Word32 := (hi ++ lo).setWidth 32

/-- The encoder: the command word of each command, from the same tables (R62, R66). -/
def encode : Instr → CommandWord
  | .beginAddr a => commandWord 0x01 (a.setWidth 32)
  | .isConnected => commandWord 0x02 0
  | .getAddress => commandWord 0x10 0
  | .setAddress a => commandWord 0x11 (a.setWidth 32)
  | .setGenericAddress => commandWord 0x12 0
  | .setSpecificAddress => commandWord 0x13 0
  | .useSpecificAddress => commandWord 0x14 0
  | .getAirPressureReference => commandWord 0x20 0
  | .setAirPressureReference v => commandWord 0x21 v
  | .getGasConcentration => commandWord 0x22 0
  | .setSinglePointCorrection v => commandWord 0x30 (v.setWidth 32)
  | .getSinglePointCorrectionReady => commandWord 0x31 0
  | .openSelfCalibration => commandWord 0x32 0
  | .closeSelfCalibration => commandWord 0x33 0
  | .getSelfCalibrationStatus => commandWord 0x34 0
  | .setSelfCalibrationHours h => commandWord 0x35 (h.setWidth 32)
  | .getSelfCalibrationHours => commandWord 0x36 0
  | .setTimeout ms => commandWord 0x40 ms
  | .getTimeout => commandWord 0x41 0
  | .suppressError f => commandWord 0x42 ((BitVec.ofBool f).setWidth 32)
  | .getSuppressError => commandWord 0x43 0
  | .lastRead => commandWord 0x44 0
  | .getType => commandWord 0x45 0
  | .lastError => commandWord 0x46 0
  | .crc16 n => commandWord 0x50 (n.setWidth 32)
  | .request cl rl => commandWord 0x51 (twoBytes cl rl)
  | .wrbuf i b => commandWord 0x52 (twoBytes i b)
  | .rdbuf i => commandWord 0x53 (i.setWidth 32)

/-- A row of spec/opcode_table.json: a word `w` selects it when `w and mask = match` (spec/INDEX.md). -/
structure TableRow where
  mask  : CommandWord
  value : CommandWord
  deriving DecidableEq, Repr

/-- The row of each command, written out from spec/opcode_table.json. -/
def rowOf : Instr → TableRow
  | .beginAddr _ => { mask := 0xFFFFFFFF00, value := 0x0100000000 }
  | .isConnected => { mask := 0xFFFFFFFFFF, value := 0x0200000000 }
  | .getAddress => { mask := 0xFFFFFFFFFF, value := 0x1000000000 }
  | .setAddress _ => { mask := 0xFFFFFFFF00, value := 0x1100000000 }
  | .setGenericAddress => { mask := 0xFFFFFFFFFF, value := 0x1200000000 }
  | .setSpecificAddress => { mask := 0xFFFFFFFFFF, value := 0x1300000000 }
  | .useSpecificAddress => { mask := 0xFFFFFFFFFF, value := 0x1400000000 }
  | .getAirPressureReference => { mask := 0xFFFFFFFFFF, value := 0x2000000000 }
  | .setAirPressureReference _ => { mask := 0xFF00000000, value := 0x2100000000 }
  | .getGasConcentration => { mask := 0xFFFFFFFFFF, value := 0x2200000000 }
  | .setSinglePointCorrection _ => { mask := 0xFFFFFF0000, value := 0x3000000000 }
  | .getSinglePointCorrectionReady => { mask := 0xFFFFFFFFFF, value := 0x3100000000 }
  | .openSelfCalibration => { mask := 0xFFFFFFFFFF, value := 0x3200000000 }
  | .closeSelfCalibration => { mask := 0xFFFFFFFFFF, value := 0x3300000000 }
  | .getSelfCalibrationStatus => { mask := 0xFFFFFFFFFF, value := 0x3400000000 }
  | .setSelfCalibrationHours _ => { mask := 0xFFFFFF0000, value := 0x3500000000 }
  | .getSelfCalibrationHours => { mask := 0xFFFFFFFFFF, value := 0x3600000000 }
  | .setTimeout _ => { mask := 0xFF00000000, value := 0x4000000000 }
  | .getTimeout => { mask := 0xFFFFFFFFFF, value := 0x4100000000 }
  | .suppressError _ => { mask := 0xFFFFFFFFFE, value := 0x4200000000 }
  | .getSuppressError => { mask := 0xFFFFFFFFFF, value := 0x4300000000 }
  | .lastRead => { mask := 0xFFFFFFFFFF, value := 0x4400000000 }
  | .getType => { mask := 0xFFFFFFFFFF, value := 0x4500000000 }
  | .lastError => { mask := 0xFFFFFFFFFF, value := 0x4600000000 }
  | .crc16 _ => { mask := 0xFFFFFFFF00, value := 0x5000000000 }
  | .request _ _ => { mask := 0xFFFFFF0000, value := 0x5100000000 }
  | .wrbuf _ _ => { mask := 0xFFFFFF0000, value := 0x5200000000 }
  | .rdbuf _ => { mask := 0xFFFFFFFF00, value := 0x5300000000 }

/-- The command word that the low `nbits` bits of `w` stand for; every bit above them is 0. -/
def commandOfTable (nbits w : Nat) : CommandWord := BitVec.ofNat 40 (w % 2 ^ nbits)

/-- The command that the decoder reads from a row of spec/opcode_table.json whose bits are `w`. A row is one 40-bit
word, so a pattern with a bit above bit 39 is no command word. -/
def decodeTableWord (nbits w : Nat) : Option Instr :=
  if w % 2 ^ nbits < 2 ^ 40 then (decode (commandOfTable nbits w)).toOption else none

end Sys2Proof
end

