-- ==== Sys2Proof/Config.lean ====
section
/-! DEFINITION. What stays fixed while the machine runs: the open parameters that spec/00_scope.md R6 asks a model
to take as an argument, and the free values that stand for what the spec leaves unspecified (spec/70_reset_and_hazards.md
R259). Every free value is an uninterpreted constant: nothing can compute it or prove a value of it. -/

namespace Sys2Proof

/-- The twelve sensor operations of R75, the index of the parameter `TEMPLATES` (R72). -/
inductive SensorOp where
  | getAddress
  | setAddress
  | getAirPressureReference
  | setAirPressureReference
  | getGasConcentration
  | setSinglePointCorrection
  | getSinglePointCorrectionReady
  | openSelfCalibration
  | closeSelfCalibration
  | getSelfCalibrationStatus
  | setSelfCalibrationHours
  | getSelfCalibrationHours
  deriving DecidableEq, Repr

/-- The four addressable spaces of R40. -/
inductive Space where
  | txbuf
  | respbuf
  | hiTable
  | loTable
  deriving DecidableEq, Repr

/-- One opportunity of the environment, taken at a yield point or between two commands (R7, R47, R49): the Clock
advances by `advance` milliseconds and the Stream appends `bytes` to `RXQ`. -/
structure Move where
  advance : Time
  bytes   : List Byte
  deriving DecidableEq, Repr, Inhabited

/-- The smallest command length that R72 allows an operation's template: 4 in general, 9 where R74 item 1 packs
offsets 4 to 6, 6 where R74 item 2 needs two payload bytes from offset 2 on. -/
def SensorOp.minCmdLen : SensorOp → Nat
  | .setAirPressureReference => 9
  | .setSelfCalibrationHours => 6
  | _ => 4

/-- The open parameters of R6, with the constraints R6 and R72 put on every admissible choice of them.
`template op x k` is the byte at offset `k` of the frame `TEMPLATES[op].bytes(x)`; an operation without operand is
built with `x = 0`, so its frame is a constant (R72 item 2). -/
structure Params where
  cmdLen      : SensorOp → Nat
  template    : SensorOp → Word32 → Nat → Byte
  hrsOff      : Nat
  defaultAddr : Byte
  deviceType  : Byte
  cmdLen_ge   : ∀ op, op.minCmdLen ≤ cmdLen op
  cmdLen_le   : ∀ op, cmdLen op ≤ 24
  hrsOff_ge   : 2 ≤ hrsOff
  hrsOff_le   : hrsOff + 4 ≤ cmdLen .setSelfCalibrationHours
  defaultAddr_le : defaultAddr.toNat ≤ 247

namespace Config

/-- OPEN (R6, R72, D10), log 2: brought into the admissible range by `Config.cmdLen`. -/
opaque freeCmdLen : SensorOp → Nat

/-- OPEN (R6, R72, D10), log 2: the template bytes as a function of operation, operand and offset. -/
opaque freeTemplate : SensorOp → Word32 → Nat → Byte

/-- OPEN (R6, R74, D11), log 2: brought into the admissible range by `Config.hrsOff`. -/
opaque freeHrsOff : Nat

/-- OPEN (R6, D27), log 2: brought into the admissible range by `Config.defaultAddr`. -/
opaque freeDefaultAddr : Nat

/-- OPEN (R6, R196, D28), log 2. -/
opaque freeDeviceType : Byte

/-- Every command length that R72 admits is taken for some value of `freeCmdLen`, and no other is. -/
def cmdLen (op : SensorOp) : Nat := op.minCmdLen + freeCmdLen op % (25 - op.minCmdLen)

/-- `2 <= HRS_OFF <= len - 4` (R6, R74 item 2), and every such offset is taken for some value of `freeHrsOff`. -/
def hrsOff : Nat := 2 + freeHrsOff % (cmdLen .setSelfCalibrationHours - 5)

/-- `DEFAULT_ADDR <= 247` (R6), and every such address is taken for some value of `freeDefaultAddr`. -/
def defaultAddr : Byte := BitVec.ofNat 8 (freeDefaultAddr % 248)

theorem minCmdLen_ge_four (op : SensorOp) : 4 ≤ op.minCmdLen := by cases op <;> decide

theorem minCmdLen_le_nine (op : SensorOp) : op.minCmdLen ≤ 9 := by cases op <;> decide

theorem cmdLen_le (op : SensorOp) : cmdLen op ≤ 24 := by
  have h := minCmdLen_le_nine op
  have := Nat.mod_lt (freeCmdLen op) (show 25 - op.minCmdLen > 0 by omega)
  unfold cmdLen
  omega

theorem hrsOff_le : hrsOff + 4 ≤ cmdLen .setSelfCalibrationHours := by
  have h : 6 ≤ cmdLen .setSelfCalibrationHours := Nat.le_add_right _ _
  have := Nat.mod_lt freeHrsOff (show cmdLen .setSelfCalibrationHours - 5 > 0 by omega)
  unfold hrsOff
  omega

theorem defaultAddr_le : defaultAddr.toNat ≤ 247 := by
  have := Nat.mod_lt freeDefaultAddr (show 248 > 0 by decide)
  simp only [defaultAddr, BitVec.toNat_ofNat]
  omega

/-- The parameters the machine runs with: any admissible ones. -/
def params : Params where
  cmdLen := cmdLen
  template := freeTemplate
  hrsOff := hrsOff
  defaultAddr := defaultAddr
  deviceType := freeDeviceType
  cmdLen_ge := fun _ => Nat.le_add_right _ _
  cmdLen_le := cmdLen_le
  hrsOff_ge := Nat.le_add_right _ _
  hrsOff_le := hrsOff_le
  defaultAddr_le := defaultAddr_le

/-- By how much the environment's move number `k` would advance the Clock once the scripted moves of `State.moves` are
used up, as a function of the bytes transmitted so far (U13), log 3: brought to a live Clock by `Config.freeMove`. -/
opaque freeAdvance : (k : Nat) → (txlog : List Byte) → Time

/-- The bytes that the same move appends to `RXQ` (U14), log 3. -/
opaque freeBytes : (k : Nat) → (txlog : List Byte) → List Byte

/-- How many free moves may leave the Clock standing between its guaranteed tick number `j` and the next (R49, D34),
log 20. -/
opaque freeGap : (j : Nat) → Nat

/-- Where free move number `k` stands among the guaranteed ticks of the Clock: how many there were before it, and how
many moves are still to come before the next (log 20). -/
def tickSchedule : (k : Nat) → Nat × Nat
  | 0 => (0, freeGap 0)
  | k + 1 =>
    match tickSchedule k with
    | (j, 0) => (j + 1, freeGap (j + 1))
    | (j, n + 1) => (j, n)

/-- Free move number `k` is one that advances the Clock, whatever else it does (R49, D34), log 20. -/
def tickDue (k : Nat) : Bool := (tickSchedule k).2 == 0

/-- The environment's move number `k` once the scripted moves of `State.moves` are used up, as a function of the bytes
transmitted so far (U13, U14), log 3. The Clock is live (R49, R259, D34): at every guaranteed tick it advances, by 1
where `freeAdvance` would leave it standing, and every run of moves without one is finite (log 20). -/
def freeMove (k : Nat) (txlog : List Byte) : Move where
  advance := if tickDue k && freeAdvance k txlog == 0 then 1 else freeAdvance k txlog
  bytes := freeBytes k txlog

/-- How far the Clock ran before the `k`-th sample by `Now()` once `State.drifts` is used up (R43, R49, U13), log 3. -/
opaque freeDrift : (k : Nat) → Time

/-- What a byte of `TXBUF` or `RESPBUF` that nothing has written since reset number `epoch` holds (R32, U11), log 4. -/
opaque unwrittenByte : (epoch : Nat) → Space → (offset : Nat) → Byte

/-- The Clock's reading when the machine is first reset (R49, U13), log 6. -/
opaque clockAtReset : Time

/-- The bytes already waiting in `RXQ` when the machine is first reset (R241, U14), log 6. -/
opaque rxqAtReset : List Byte

/-- `CRCHI` after reset number `epoch`: unspecified (R32, U11), log 5. -/
opaque resetCrchi : (epoch : Nat) → Byte
/-- `CRCLO` after reset number `epoch`: unspecified (R32, U11), log 5. -/
opaque resetCrclo : (epoch : Nat) → Byte
/-- `IDX` after reset number `epoch`: unspecified (R32, U11), log 5. -/
opaque resetIdx : (epoch : Nat) → Byte
/-- `TXLEN` after reset number `epoch`: unspecified (R32, U11), log 5. -/
opaque resetTxlen : (epoch : Nat) → Byte
/-- `RXLEN` after reset number `epoch`: unspecified (R32, U11), log 5. -/
opaque resetRxlen : (epoch : Nat) → Byte
/-- `TXI` after reset number `epoch`: unspecified (R32, U11), log 5. -/
opaque resetTxi : (epoch : Nat) → Byte
/-- `RXN` after reset number `epoch`: unspecified (R32, U11), log 5. -/
opaque resetRxn : (epoch : Nat) → Byte
/-- `TSTART` after reset number `epoch`: unspecified (R32, U11), log 5. -/
opaque resetTstart : (epoch : Nat) → Time
/-- `CMD` after reset number `epoch`: unspecified (R32, U11), log 5. -/
opaque resetCmd : (epoch : Nat) → CommandWord
/-- `RESULT` after reset number `epoch`: unspecified (R32, U11), log 5. -/
opaque resetResult : (epoch : Nat) → Word32

end Config

end Sys2Proof
end

