-- ==== Sys2Proof/Machine/State.lean ====
section
/-! DEFINITION. The state of the MTP40C-PE (spec/10_state.md R10 to R32), of the environment it talks to
(spec/20_memory.md R46 to R49), the reasons a step can stop, and the state after reset (R32, R240). -/

namespace Sys2Proof.Machine

/-- A byte buffer: the (offset, byte) pairs written since reset, offsets rising (log 4). An offset below 24 that is
not listed holds the free value `Config.unwrittenByte` (R32); there is no offset 24 or above (R41). -/
abbrev Memory := List Host.Cell

/-- The values of `PHASE`, in the order R25 gives them. -/
inductive Phase where
  | idle
  | validate
  | build
  | address
  | crc
  | append
  | tx
  | rx
  | decode
  deriving DecidableEq, Repr

/-- What the Host gives the block: a command word (R60), or the reset input (R240). -/
inductive Input where
  | command (w : CommandWord)
  | reset
  deriving DecidableEq, Repr

/-- The whole state: the registers and buffers of R10 (the two tables, read-only, are the constants `hiTable` and
`loTable`, R20), the environment of R46 to R49, and the model's own fields for the environment's and the Host's moves
to come (log 3, log 7). -/
structure State where
  /-- `ADDR` (R11). -/
  addr : Byte
  /-- `SPECIFIC` (R12). -/
  specific : Bool
  /-- `TIMEOUT` (R13). -/
  timeout : Time
  /-- `SUPPRESS` (R14). -/
  suppress : Bool
  /-- `LASTREAD` (R15). -/
  lastread : Time
  /-- `GAS` (R16). -/
  gas : Half
  /-- `AIRP` (R17). -/
  airp : Word32
  /-- `CRCHI` (R18). -/
  crchi : Byte
  /-- `CRCLO` (R18). -/
  crclo : Byte
  /-- `IDX` (R19). -/
  idx : Byte
  /-- `TXBUF` (R21). -/
  txbuf : Memory
  /-- `RESPBUF` (R22). -/
  respbuf : Memory
  /-- `TXLEN` (R23). -/
  txlen : Byte
  /-- `RXLEN` (R23). -/
  rxlen : Byte
  /-- `TXI` (R24). -/
  txi : Byte
  /-- `RXN` (R24). -/
  rxn : Byte
  /-- `PHASE` (R25). -/
  phase : Phase
  /-- `TSTART` (R26). -/
  tstart : Time
  /-- `CMD` (R27). -/
  cmd : CommandWord
  /-- `RESULT` (R27). -/
  result : Word32
  /-- `STATUS` (R27). -/
  status : Byte
  /-- `BUSY` (R27). -/
  busy : Bool
  /-- The Clock's reading (R49). -/
  clock : Time
  /-- `RXQ`: the bytes made available and not yet read (R47). -/
  rxq : List Byte
  /-- `TXLOG`: every byte handed to `StreamWrite` since reset (R46). -/
  txlog : List Byte
  /-- The environment's next moves, one per yield point or gap between commands (model's own, log 3). -/
  moves : List Move
  /-- The Clock's advances before the next samples by `Now()` (model's own, log 3). -/
  drifts : List Time
  /-- How many moves were taken: the argument of `Config.freeMove` (model's own, log 3). -/
  moveCount : Nat
  /-- How many samples were taken: the argument of `Config.freeDrift` (model's own, log 3). -/
  driftCount : Nat
  /-- What the Host gives the block next (model's own, log 7). -/
  inputs : List Input
  /-- How many times the reset input acted: the argument of the free reset values (model's own, log 4, log 5). -/
  epoch : Nat
  deriving DecidableEq, Repr

/-- Why the model stops with a fault. -/
inductive Fault where
  /-- Raised by `resume`, at a step from a state with `BUSY = 1` that no rule describes: not in phase `RX`, `RXLEN`
  above the buffer's capacity, or a command in `CMD` that performs no exchange. No run from reset reaches such a
  state. Safe: the model stops where the spec says nothing (log 11). -/
  | noSequencerStep
  deriving DecidableEq, Repr

/-- Why the model refuses. -/
inductive Refusal where
  /-- Raised by an arm of `exec` whose instruction has no meaning yet. Safe: the model stops. -/
  | notModelled (mnemonic : String)
  /-- Raised by `execIsConnected`: R182 gives `ISCONNECTED` no semantics and says that a model must refuse it. Safe:
  the model stops (log 10). -/
  | connectionQuery
  deriving DecidableEq, Repr

/-- What a meaning or a step answers. -/
abbrev Answer := Host.Outcome State Fault Refusal

/-- The state that reset number `epoch` leaves (R32, R240), given what reset does not touch (R241): the Clock, `RXQ`
and the environment's moves to come. What R32 calls unspecified takes its free value for this reset (log 4, log 5). -/
def State.afterReset (epoch : Nat) (clock : Time) (rxq : List Byte) (moves : List Move) (drifts : List Time)
    (moveCount driftCount : Nat) (inputs : List Input) : State where
  addr := Config.params.defaultAddr
  specific := false
  timeout := 100
  suppress := false
  lastread := 0
  gas := 0
  airp := 0
  crchi := Config.resetCrchi epoch
  crclo := Config.resetCrclo epoch
  idx := Config.resetIdx epoch
  txbuf := []
  respbuf := []
  txlen := Config.resetTxlen epoch
  rxlen := Config.resetRxlen epoch
  txi := Config.resetTxi epoch
  rxn := Config.resetRxn epoch
  phase := .idle
  tstart := Config.resetTstart epoch
  cmd := Config.resetCmd epoch
  result := Config.resetResult epoch
  status := 0
  busy := false
  clock := clock
  rxq := rxq
  txlog := []
  moves := moves
  drifts := drifts
  moveCount := moveCount
  driftCount := driftCount
  inputs := inputs
  epoch := epoch

/-- The machine right after its first reset (R32, R240, R241; log 6 for the Clock and `RXQ`, log 7 for the model's own
fields). -/
def State.reset : State := State.afterReset 0 Config.clockAtReset Config.rxqAtReset [] [] 0 0 []

end Sys2Proof.Machine
end

