-- ==== Sys2Proof/Machine/Flags.lean ====
section
/-! DEFINITION. The block's only status bits, `STATUS` and `BUSY` (spec/10_state.md R28): the codes of
spec/60_exceptions.md R211. There are no condition codes. -/

namespace Sys2Proof.Machine

/-- The four error classes of R210. -/
inductive ErrorClass where
  | validation
  | timeout
  | protocol
  | illegal
  deriving DecidableEq, Repr

/-- `STATUS` 0, `OK` (R211). -/
def statusOk : Byte := 0

/-- The `STATUS` code of a class (R211). -/
def ErrorClass.code : ErrorClass → Byte
  | .validation => 1
  | .timeout => 2
  | .protocol => 3
  | .illegal => 4

end Sys2Proof.Machine
end

