-- ==== Sys2Proof/Machine/Operands.lean ====
section
/-! DEFINITION. Operands and results: the fixed parameters of spec/00_scope.md R6, the range checks of
spec/42_operations.md R152, R154, R156, R160 and R166, the result encodings of spec/30_encoding.md R64 and the
little-endian unpacking of R149. -/

namespace Sys2Proof.Machine

/-- `BROADCAST` (R6). -/
def broadcast : Byte := 0xFE

/-- `RESP_CAP` and `TX_CAP`, the capacity of each buffer (R6). -/
def bufCap : Nat := 24

/-- `RATE_WINDOW` (R6). -/
def rateWindow : Time := 4000

/-- The address check of `BEGIN` and `SETADDRESS`: passes when `a <= ADDR_MAX` = 247 (R152). -/
def addressOk (a : Byte) : Bool := a ≤ 247

/-- `InRangeF32(v, 700.0, 1100.0)` in the form R156 gives it: an unsigned comparison of the patterns of the bounds. -/
def airPressureOk (v : Word32) : Bool := 0x442F0000 ≤ v && v ≤ 0x44898000

/-- `SPC_MIN <= v <= SPC_MAX` (R6, R160). -/
def correctionOk (v : Half) : Bool := 400 ≤ v && v ≤ 5000

/-- `HRS_MIN <= h <= HRS_MAX` (R6, R166). -/
def hoursOk (h : Half) : Bool := 24 ≤ h && h ≤ 720

/-- The lengths `REQUEST` takes (R111, R198). -/
def requestLengthsOk (cl rl : Byte) : Bool := 4 ≤ cl.toNat && cl.toNat ≤ bufCap && rl.toNat ≤ bufCap

/-- A boolean in `RESULT` (R64). -/
def boolResult (b : Bool) : Word32 := if b then 1 else 0

/-- An 8-bit value in `RESULT` (R64). -/
def byteResult (b : Byte) : Word32 := b.setWidth 32

/-- A 16-bit value in `RESULT` (R64). -/
def halfResult (h : Half) : Word32 := h.setWidth 32

/-- The sentinel `f32(-999.0)` of `GETAIRPRESSUREREFERENCE` (R64, R144). -/
def airPressureSentinel : Word32 := 0xC479C000

/-- `U16LE`: `b0 + 256 * b1` (R149). -/
def u16le (b0 b1 : Byte) : Half := b1 ++ b0

/-- `F32LE3`: three bytes, least significant first, under a zero top byte (R149, R153). -/
def f32le3 (b0 b1 b2 : Byte) : Word32 := (0 : Byte) ++ b2 ++ b1 ++ b0

/-- Byte `k` of a 32-bit value, byte 0 the least significant (R45). -/
def byteOf (v : Word32) (k : Nat) : Byte := v.extractLsb' (8 * k) 8

/-- The awaited response length of each sensor operation (R75). -/
def respLen : SensorOp → Nat
  | .getAddress => 7
  | .setAddress => 8
  | .getAirPressureReference => 10
  | .setAirPressureReference => 10
  | .getGasConcentration => 14
  | .setSinglePointCorrection => 10
  | .getSinglePointCorrectionReady => 6
  | .openSelfCalibration => 6
  | .closeSelfCalibration => 6
  | .getSelfCalibrationStatus => 6
  | .setSelfCalibrationHours => 6
  | .getSelfCalibrationHours => 9

end Sys2Proof.Machine
end

