-- ==== Sys2Proof/Machine/Ops.lean ====
section
/-! DEFINITION. The named operations on the state that the meanings share: byte accesses to the four spaces
(spec/20_memory.md R40 to R44), the five primitives (spec/00_scope.md R8), a command's issue and end
(spec/30_encoding.md R60), raising an error (spec/60_exceptions.md R218) and the reset input (R240). -/

namespace Sys2Proof.Machine

/-! ### Buffers -/

/-- The byte listed at offset `a`, if any. -/
def Memory.find : Memory → Nat → Option Byte
  | [], _ => none
  | (k, c) :: m, a => if k = a then some c else Memory.find m a

/-- The list with the byte at offset `a` set to `b`, offsets still rising. -/
def Memory.put : Memory → Nat → Byte → Memory
  | [], a, b => [(a, b)]
  | (k, c) :: m, a, b =>
    if a < k then (a, b) :: (k, c) :: m
    else if a = k then (a, b) :: m
    else (k, c) :: Memory.put m a b

/-- The canonical form: offsets strictly rising, each inside the buffer (R41). An unlisted offset reads as no listed
byte, so two canonical buffers with the same listed bytes are the same list. -/
abbrev Memory.wf (m : Memory) : Prop :=
  m.Pairwise (fun x y => x.1 < y.1) ∧ ∀ c ∈ m, c.1 < bufCap

/-- `MemRead(space, a, 1)` (R9, R44). A buffer byte that nothing has written since reset holds its free value (R32). -/
def State.memRead (s : State) : Space → Nat → Byte
  | .txbuf, a => (Memory.find s.txbuf a).getD (Config.unwrittenByte s.epoch .txbuf a)
  | .respbuf, a => (Memory.find s.respbuf a).getD (Config.unwrittenByte s.epoch .respbuf a)
  | .hiTable, a => hiTable.getD a 0
  | .loTable, a => loTable.getD a 0

/-- `TXBUF[a] <- b` (R9, R44). No rule forms an offset outside the buffer (R41), and none is stored (log 14). -/
def State.txWrite (s : State) (a : Nat) (b : Byte) : State :=
  if a < bufCap then { s with txbuf := Memory.put s.txbuf a b } else s

/-- `RESPBUF[a] <- b` (R9, R44); as for `txWrite` (log 14). -/
def State.respWrite (s : State) (a : Nat) (b : Byte) : State :=
  if a < bufCap then { s with respbuf := Memory.put s.respbuf a b } else s

/-- The half-open range `B[0, n)` of a space (R9). -/
def State.bytes (s : State) (sp : Space) (n : Nat) : List Byte := (List.range n).map (s.memRead sp)

/-- `PUT16LE(TXBUF, k, h)` for the low 16 bits of `v` (R149). -/
def State.put16le (s : State) (k : Nat) (v : Word32) : State :=
  (s.txWrite k (byteOf v 0)).txWrite (k + 1) (byteOf v 1)

/-- `PUT24LE(TXBUF, k, v)` (R149). -/
def State.put24le (s : State) (k : Nat) (v : Word32) : State :=
  ((s.txWrite k (byteOf v 0)).txWrite (k + 1) (byteOf v 1)).txWrite (k + 2) (byteOf v 2)

/-! ### The environment -/

/-- The environment's next move: the first scripted one, or a free one (log 3). -/
def State.nextMove (s : State) : Move :=
  match s.moves with
  | m :: _ => m
  | [] => Config.freeMove s.moveCount s.txlog

/-- The environment moves once: the Clock advances modulo 2^32 and bytes join the end of `RXQ` (R47, R49). -/
def State.environmentMove (s : State) : State :=
  { s with
    clock := s.clock + s.nextMove.advance
    rxq := s.rxq ++ s.nextMove.bytes
    moves := s.moves.tail
    moveCount := s.moveCount + 1 }

/-- `Yield()` (R8, R47): a yield point. -/
def State.yield (s : State) : State := s.environmentMove

/-- What the environment does between two commands (R47, R49; log 15). -/
def State.betweenCommands (s : State) : State := s.environmentMove

/-- How far the Clock runs before the next sample: scripted, or free (log 3). -/
def State.nextDrift (s : State) : Time :=
  match s.drifts with
  | d :: _ => d
  | [] => Config.freeDrift s.driftCount

/-- `Now()` (R8): the state in which the sample is taken, whose `clock` is the sample; the Clock may have run since the
Engine's last own step (R43). -/
def State.sample (s : State) : State :=
  { s with
    clock := s.clock + s.nextDrift
    drifts := s.drifts.tail
    driftCount := s.driftCount + 1 }

/-- `StreamWrite(b)` (R8, R46). -/
def State.streamWrite (s : State) (b : Byte) : State := { s with txlog := s.txlog ++ [b] }

/-! ### The CRC unit -/

/-- The CRC unit's registers after one more byte (R93). -/
def State.crcUnitStep (s : State) (b : Byte) : State :=
  { s with
    crchi := (crcStep { hi := s.crchi, lo := s.crclo } b).hi
    crclo := (crcStep { hi := s.crchi, lo := s.crclo } b).lo
    idx := crcIndex { hi := s.crchi, lo := s.crclo } b }

/-- The CRC unit started (R91). -/
def State.crcUnitInit (s : State) : State := { s with crchi := crcInit.hi, crclo := crcInit.lo }

/-- The computation over `TXBUF[0, n)`, bytes in increasing offset order (R100). -/
def State.crcUnit (s : State) (n : Nat) : State := (s.bytes .txbuf n).foldl State.crcUnitStep s.crcUnitInit

/-- The unit's result, `CRCHI * 256 + CRCLO` (R94). -/
def State.crcResult (s : State) : Half := crcValue { hi := s.crchi, lo := s.crclo }

/-! ### A command's course -/

/-- `PHASE <- ph` (R25). -/
def State.setPhase (s : State) (ph : Phase) : State := { s with phase := ph }

/-- Issue (R60): the word is latched into `CMD`, `BUSY` is set, and the command is in phase `VALIDATE` (R25). -/
def State.issueWord (s : State) (w : CommandWord) : State := { s with cmd := w, busy := true, phase := .validate }

/-- The issue of a command given as an instruction. -/
def State.issue (s : State) (i : Instr) : State := s.issueWord (encode i)

/-- A command's end without an error: `RESULT <- r ; STATUS <- 0` (R140 stage 6), and the block is idle (R60). -/
def State.complete (s : State) (r : Word32) : State :=
  { s with result := r, status := statusOk, phase := .idle, busy := false }

/-- The end of `LASTERROR`, the one command that leaves `STATUS` as it is (R194). -/
def State.completeKeepingStatus (s : State) (r : Word32) : State :=
  { s with result := r, phase := .idle, busy := false }

/-- Raising an error (R218): `RESULT` takes the command's value for the class, `STATUS` the code, and the block is idle.
Nothing is saved and nothing is to be returned from (R219). -/
def State.raise (s : State) (e : ErrorClass) (r : Word32) : State :=
  { s with result := r, status := e.code, phase := .idle, busy := false }

/-- An illegal command word (R67): latched into `CMD`, and `IllegalCommand` raised with `RESULT <- 0` (R216). -/
def State.illegalWord (s : State) (w : CommandWord) : State := (s.issueWord w).raise .illegal 0

/-- The reset input (R240 to R242): the state after reset, with the Clock, `RXQ` and the moves to come untouched; what
is unspecified after this reset is unspecified anew (log 4, log 5). -/
def State.resetInput (s : State) : State :=
  State.afterReset (s.epoch + 1) s.clock s.rxq s.moves s.drifts s.moveCount s.driftCount s.inputs

end Sys2Proof.Machine
end

