-- ==== Sys2Proof/Machine/Exchange.lean ====
section
/-! DEFINITION. The request engine: one exchange (spec/41_request.md R110 to R131), the frame builder
(spec/42_operations.md R141) and the rate check (R145, R146). -/

namespace Sys2Proof.Machine

/-- How far an exchange has come. `success` and `timeout` are R110's two outcomes; `waiting` says that the receive
loop is still running when the step ends (log 1). -/
inductive ExchangeOutcome where
  | success
  | timeout
  | waiting
  deriving DecidableEq, Repr

/-- Entry: the two lengths are latched (R111). -/
def State.enter (s : State) (cl rl : Nat) : State :=
  { s with txlen := BitVec.ofNat 8 cl, rxlen := BitVec.ofNat 8 rl, phase := .address }

/-- The byte R113 writes at offset 0. -/
def State.addressByte (s : State) : Byte := if s.specific then s.addr else broadcast

/-- The address byte (R113). -/
def State.putAddress (s : State) : State := s.txWrite 0 s.addressByte

/-- The CRC over the address byte, the function code and the payload (R114). -/
def State.frameCrc (s : State) : State := (s.setPhase .crc).crcUnit (s.txlen.toNat - 2)

/-- CRC insertion, low byte first (R115). -/
def State.appendCrc (s : State) : State :=
  ((s.setPhase .append).txWrite (s.txlen.toNat - 2) (s.crcResult.extractLsb' 0 8)).txWrite (s.txlen.toNat - 1)
    (s.crcResult.extractLsb' 8 8)

/-- The frame completed in `TXBUF`: entry, address byte, CRC, CRC insertion (R111 to R115). -/
def State.completeFrame (s : State) (cl rl : Nat) : State := (s.enter cl rl).putAddress.frameCrc.appendCrc

/-- One byte of the transmit phase: `StreamWrite(TXBUF[TXI])`, then a yield (R116). -/
def State.transmitByte (s : State) : State :=
  { s.streamWrite (s.memRead .txbuf s.txi.toNat) with txi := s.txi + 1 }.yield

/-- `n` more bytes of the transmit phase (R116). -/
def State.transmitBytes : Nat → State → State
  | 0, s => s
  | n + 1, s => State.transmitBytes n s.transmitByte

/-- The transmit phase: `TXI` from 0 to `TXLEN - 1` (R116). `TXI` is left at `TXLEN`, the offset of the next byte
(R24, log 9). -/
def State.transmit (s : State) : State := State.transmitBytes s.txlen.toNat { s with phase := .tx, txi := 0 }

/-- `TSTART <- Now() ; RXN <- 0` (R118). -/
def State.startReceive (s : State) : State := { s.sample with tstart := s.sample.clock, rxn := 0, phase := .rx }

/-- The deadline check on the latest sample, strict and modulo 2^32 (R120). -/
def State.deadlinePassed (s : State) : Bool := s.timeout < s.clock - s.tstart

/-- The poll: at most one byte, if one is available (R121). -/
def State.poll (s : State) : State :=
  match s.rxq with
  | [] => s
  | b :: rest => { s.respWrite s.rxn.toNat b with rxq := rest, rxn := s.rxn + 1 }

/-- The receive loop, at most `n` iterations of it: completion test, deadline check, poll, yield (R119 to R123). -/
def State.receiveLoop : Nat → State → ExchangeOutcome × State
  | 0, s => if s.rxn < s.rxlen then (.waiting, s) else (.success, s)
  | n + 1, s =>
    if s.rxn < s.rxlen then
      if s.sample.deadlinePassed then (.timeout, s.sample)
      else State.receiveLoop n s.sample.poll.yield
    else (.success, s)

/-- The receive loop as far as one step takes it: through the environment's scripted moves and one more (log 1). -/
def State.receive (s : State) : ExchangeOutcome × State := State.receiveLoop (s.moves.length + 1) s

/-- The exchange up to the first completion test of the receive loop (R111 to R118). -/
def State.sendFrame (s : State) (cl rl : Nat) : State :=
  (s.completeFrame cl rl).transmit.startReceive

/-- The whole exchange (R112). -/
def State.exchange (s : State) (cl rl : Nat) : ExchangeOutcome × State := (s.sendFrame cl rl).receive

/-- What follows an exchange: the decoder on success; `TimeoutError` with the command's sentinel on timeout (R126,
R143); and nothing yet while the loop still runs, `BUSY` staying 1 (R250, log 1). -/
def conclude (sentinel : Word32) (onSuccess : State → State) : ExchangeOutcome × State → State
  | (.success, s) => onSuccess s
  | (.timeout, s) => s.raise .timeout sentinel
  | (.waiting, s) => s

/-- The template's bytes at offsets below `n`, in increasing order (R141). -/
def State.putTemplate (p : Params) (op : SensorOp) (x : Word32) : Nat → State → State
  | 0, s => s
  | n + 1, s => (State.putTemplate p op x n s).txWrite n (p.template op x n)

/-- The frame builder, before any operand packing (R141). -/
def State.build (s : State) (p : Params) (op : SensorOp) (x : Word32) : State :=
  State.putTemplate p op x (p.cmdLen op) (s.setPhase .build)

/-- A sensor operation's exchange, with its lengths (R110, R140 stage 4). -/
def State.sensorExchange (s : State) (p : Params) (op : SensorOp) : ExchangeOutcome × State :=
  s.exchange (p.cmdLen op) (respLen op)

/-- The rate check on the latest sample: a cached return when it holds (R145). -/
def State.inRateWindow (s : State) : Bool := s.clock - s.lastread < rateWindow

/-- A live read is admitted: `LASTREAD` takes the sample (R146). -/
def State.admitRead (s : State) : State := { s with lastread := s.clock }

end Sys2Proof.Machine
end

