-- ==== Sys2Proof/Machine/Addressing.lean ====
section
/-! DEFINITION. The addressing commands (spec/42_operations.md R150, R151; spec/43_config.md R184 to R186). An
instruction that performs an exchange is given in two parts: `run…` up to the exchange's outcome, with the open
parameters as an argument (R6), and `finish…` from the outcome on, which `resume` calls too. -/

namespace Sys2Proof.Machine

/-- `GETADDRESS` from the outcome of its exchange on (R150). -/
def finishGetAddress : ExchangeOutcome × State → State :=
  conclude (byteResult 0xFF) fun s => (s.setPhase .decode).complete (byteResult (s.memRead .respbuf 3))

/-- `GETADDRESS` (R150). -/
def runGetAddress (p : Params) (s : State) : State :=
  finishGetAddress (((s.issue .getAddress).build p .getAddress 0).sensorExchange p .getAddress)

/-- `GETADDRESS` (R150). -/
def execGetAddress (s : State) : Answer := .next (runGetAddress Config.params s)

/-- `SETADDRESS a` from the outcome of its exchange on (R151). -/
def finishSetAddress (a : Byte) : ExchangeOutcome × State → State :=
  conclude (boolResult false) fun s => { s.setPhase .decode with addr := a }.complete (boolResult true)

/-- `SETADDRESS a` (R151). -/
def runSetAddress (p : Params) (a : Byte) (s : State) : State :=
  let s := s.issue (.setAddress a)
  if addressOk a then finishSetAddress a ((s.build p .setAddress (a.setWidth 32)).sensorExchange p .setAddress)
  else s.raise .validation (boolResult false)

/-- `SETADDRESS a` (R151). -/
def execSetAddress (a : Byte) (s : State) : Answer := .next (runSetAddress Config.params a s)

/-- `SETGENERICADDRESS` (R184). -/
def execSetGenericAddress (s : State) : Answer :=
  .next ({ s.issue .setGenericAddress with specific := false }.complete 0)

/-- `SETSPECIFICADDRESS` (R185). -/
def execSetSpecificAddress (s : State) : Answer :=
  .next ({ s.issue .setSpecificAddress with specific := true }.complete 0)

/-- `USESPECIFICADDRESS` (R186). -/
def execUseSpecificAddress (s : State) : Answer :=
  .next ((s.issue .useSpecificAddress).complete (boolResult s.specific))

end Sys2Proof.Machine
end

