-- ==== Sys2Proof/Machine/Calibration.lean ====
section
/-! DEFINITION. The calibration operations (spec/42_operations.md R160 to R167), in the two parts that
Machine/Addressing.lean describes. -/

namespace Sys2Proof.Machine

/-- `SETSINGLEPOINTCORRECTION v` from the outcome of its exchange on (R160). -/
def finishSetSinglePointCorrection : ExchangeOutcome × State → State :=
  conclude (boolResult false) fun s =>
    let s := s.setPhase .decode
    if s.memRead .respbuf 7 = 0 then s.raise .protocol (boolResult false) else s.complete (boolResult true)

/-- `SETSINGLEPOINTCORRECTION v` (R160). -/
def runSetSinglePointCorrection (p : Params) (v : Half) (s : State) : State :=
  let s := s.issue (.setSinglePointCorrection v)
  if correctionOk v then
    finishSetSinglePointCorrection
      ((s.build p .setSinglePointCorrection (v.setWidth 32)).sensorExchange p .setSinglePointCorrection)
  else s.raise .validation (boolResult false)

/-- `SETSINGLEPOINTCORRECTION v` (R160). -/
def execSetSinglePointCorrection (v : Half) (s : State) : Answer :=
  .next (runSetSinglePointCorrection Config.params v s)

/-- `GETSINGLEPOINTCORRECTIONREADY` from the outcome of its exchange on (R161). -/
def finishGetSinglePointCorrectionReady : ExchangeOutcome × State → State :=
  conclude (boolResult false) fun s => (s.setPhase .decode).complete (boolResult (s.memRead .respbuf 3 == 0))

/-- `GETSINGLEPOINTCORRECTIONREADY` (R161). -/
def runGetSinglePointCorrectionReady (p : Params) (s : State) : State :=
  finishGetSinglePointCorrectionReady
    (((s.issue .getSinglePointCorrectionReady).build p .getSinglePointCorrectionReady 0).sensorExchange p
      .getSinglePointCorrectionReady)

/-- `GETSINGLEPOINTCORRECTIONREADY` (R161). -/
def execGetSinglePointCorrectionReady (s : State) : Answer :=
  .next (runGetSinglePointCorrectionReady Config.params s)

/-- `OPENSELFCALIBRATION` from the outcome of its exchange on (R163). -/
def finishOpenSelfCalibration : ExchangeOutcome × State → State :=
  conclude (boolResult false) fun s => (s.setPhase .decode).complete (boolResult true)

/-- `OPENSELFCALIBRATION` (R163). -/
def runOpenSelfCalibration (p : Params) (s : State) : State :=
  finishOpenSelfCalibration
    (((s.issue .openSelfCalibration).build p .openSelfCalibration 0).sensorExchange p .openSelfCalibration)

/-- `OPENSELFCALIBRATION` (R163). -/
def execOpenSelfCalibration (s : State) : Answer := .next (runOpenSelfCalibration Config.params s)

/-- `CLOSESELFCALIBRATION` from the outcome of its exchange on (R164). -/
def finishCloseSelfCalibration : ExchangeOutcome × State → State :=
  conclude (boolResult false) fun s => (s.setPhase .decode).complete (boolResult true)

/-- `CLOSESELFCALIBRATION` (R164). -/
def runCloseSelfCalibration (p : Params) (s : State) : State :=
  finishCloseSelfCalibration
    (((s.issue .closeSelfCalibration).build p .closeSelfCalibration 0).sensorExchange p .closeSelfCalibration)

/-- `CLOSESELFCALIBRATION` (R164). -/
def execCloseSelfCalibration (s : State) : Answer := .next (runCloseSelfCalibration Config.params s)

/-- `GETSELFCALIBRATIONSTATUS` from the outcome of its exchange on (R165). -/
def finishGetSelfCalibrationStatus : ExchangeOutcome × State → State :=
  conclude (byteResult 0x02) fun s => (s.setPhase .decode).complete (byteResult (s.memRead .respbuf 3))

/-- `GETSELFCALIBRATIONSTATUS` (R165). -/
def runGetSelfCalibrationStatus (p : Params) (s : State) : State :=
  finishGetSelfCalibrationStatus
    (((s.issue .getSelfCalibrationStatus).build p .getSelfCalibrationStatus 0).sensorExchange p
      .getSelfCalibrationStatus)

/-- `GETSELFCALIBRATIONSTATUS` (R165). -/
def execGetSelfCalibrationStatus (s : State) : Answer := .next (runGetSelfCalibrationStatus Config.params s)

/-- `SETSELFCALIBRATIONHOURS h` from the outcome of its exchange on (R166). -/
def finishSetSelfCalibrationHours : ExchangeOutcome × State → State :=
  conclude (boolResult false) fun s =>
    let s := s.setPhase .decode
    if s.memRead .respbuf 3 = 0 then s.complete (boolResult true) else s.raise .protocol (boolResult false)

/-- `SETSELFCALIBRATIONHOURS h` (R166); the operand at `HRS_OFF`, little-endian (R74 item 2). -/
def runSetSelfCalibrationHours (p : Params) (h : Half) (s : State) : State :=
  let s := s.issue (.setSelfCalibrationHours h)
  if hoursOk h then
    finishSetSelfCalibrationHours
      (((s.build p .setSelfCalibrationHours (h.setWidth 32)).put16le p.hrsOff (h.setWidth 32)).sensorExchange p
        .setSelfCalibrationHours)
  else s.raise .validation (boolResult false)

/-- `SETSELFCALIBRATIONHOURS h` (R166). -/
def execSetSelfCalibrationHours (h : Half) (s : State) : Answer :=
  .next (runSetSelfCalibrationHours Config.params h s)

/-- `GETSELFCALIBRATIONHOURS` from the outcome of its exchange on (R167). -/
def finishGetSelfCalibrationHours : ExchangeOutcome × State → State :=
  conclude (halfResult 0xFFFF) fun s =>
    (s.setPhase .decode).complete (halfResult (u16le (s.memRead .respbuf 3) (s.memRead .respbuf 4)))

/-- `GETSELFCALIBRATIONHOURS` (R167). -/
def runGetSelfCalibrationHours (p : Params) (s : State) : State :=
  finishGetSelfCalibrationHours
    (((s.issue .getSelfCalibrationHours).build p .getSelfCalibrationHours 0).sensorExchange p
      .getSelfCalibrationHours)

/-- `GETSELFCALIBRATIONHOURS` (R167). -/
def execGetSelfCalibrationHours (s : State) : Answer := .next (runGetSelfCalibrationHours Config.params s)

end Sys2Proof.Machine
end

