-- ==== Sys2Proof/Machine/Configuration.lean ====
section
/-! DEFINITION. The configuration commands and the status readers (spec/43_config.md R188 to R196). -/

namespace Sys2Proof.Machine

/-- `SETTIMEOUT ms` (R188); no range check. -/
def execSetTimeout (ms : Word32) (s : State) : Answer :=
  .next ({ s.issue (.setTimeout ms) with timeout := ms }.complete 0)

/-- `GETTIMEOUT` (R189). -/
def execGetTimeout (s : State) : Answer := .next ((s.issue .getTimeout).complete s.timeout)

/-- `SUPPRESSERROR f` (R190); the flag has no other effect. -/
def execSuppressError (f : Bool) (s : State) : Answer :=
  .next ({ s.issue (.suppressError f) with suppress := f }.complete 0)

/-- `GETSUPPRESSERROR` (R191). -/
def execGetSuppressError (s : State) : Answer :=
  .next ((s.issue .getSuppressError).complete (boolResult s.suppress))

/-- `LASTREAD` (R192). -/
def execLastRead (s : State) : Answer := .next ((s.issue .lastRead).complete s.lastread)

/-- `GETTYPE` with the open parameter `DEVICE_TYPE` as an argument (R6, R196). -/
def runGetType (p : Params) (s : State) : State := (s.issue .getType).complete (byteResult p.deviceType)

/-- `GETTYPE` (R196). -/
def execGetType (s : State) : Answer := .next (runGetType Config.params s)

/-- `LASTERROR` (R194): `STATUS` is returned and left unchanged. -/
def execLastError (s : State) : Answer :=
  .next ((s.issue .lastError).completeKeepingStatus (byteResult s.status))

end Sys2Proof.Machine
end

