-- ==== Sys2Proof/Machine/Lifecycle.lean ====
section
/-! DEFINITION. The lifecycle commands (spec/43_config.md R181, R182). -/

namespace Sys2Proof.Machine

/-- `BEGIN a` (R181). -/
def execBeginAddr (a : Byte) (s : State) : Answer :=
  .next (
    let s := s.issue (.beginAddr a)
    if addressOk a then { s with addr := a }.complete (boolResult true)
    else s.raise .validation (boolResult false))

/-- `ISCONNECTED` (R182): "a model must *refuse* the command". -/
def execIsConnected (_s : State) : Answer := .refused .connectionQuery

end Sys2Proof.Machine
end

