-- ==== Sys2Proof/Machine/Primitives.lean ====
section
/-! DEFINITION. The engine primitives and the buffer accesses (spec/43_config.md R197 to R200). -/

namespace Sys2Proof.Machine

/-- `CRC16 n` (R197). -/
def execCrc16 (n : Byte) (s : State) : Answer :=
  .next (
    let s := s.issue (.crc16 n)
    if n.toNat ≤ bufCap then (s.crcUnit n.toNat).complete (halfResult (s.crcUnit n.toNat).crcResult)
    else s.raise .illegal 0)

/-- `REQUEST cl, rl` from the outcome of its exchange on (R198); no decode runs. -/
def finishRequest : ExchangeOutcome × State → State :=
  conclude (boolResult false) fun s => s.complete (boolResult true)

/-- `REQUEST cl, rl` (R198). -/
def execRequest (cl rl : Byte) (s : State) : Answer :=
  .next (
    let s := s.issue (.request cl rl)
    if requestLengthsOk cl rl then finishRequest (s.exchange cl.toNat rl.toNat)
    else s.raise .illegal 0)

/-- `WRBUF i, b` (R199). -/
def execWrbuf (i b : Byte) (s : State) : Answer :=
  .next (
    let s := s.issue (.wrbuf i b)
    if i.toNat < bufCap then (s.txWrite i.toNat b).complete 0
    else s.raise .illegal 0)

/-- `RDBUF i` (R200). -/
def execRdbuf (i : Byte) (s : State) : Answer :=
  .next (
    let s := s.issue (.rdbuf i)
    if i.toNat < bufCap then s.complete (byteResult (s.memRead .respbuf i.toNat))
    else s.raise .illegal 0)

end Sys2Proof.Machine
end

