-- ==== Sys2Proof/Machine/Sensing.lean ====
section
/-! DEFINITION. The sensing operations (spec/42_operations.md R153, R154, R157), in the two parts that
Machine/Addressing.lean describes. -/

namespace Sys2Proof.Machine

/-- `GETAIRPRESSUREREFERENCE` from the outcome of its exchange on (R153). -/
def finishGetAirPressureReference : ExchangeOutcome × State → State :=
  conclude airPressureSentinel fun s =>
    let v := f32le3 (s.memRead .respbuf 4) (s.memRead .respbuf 5) (s.memRead .respbuf 6)
    { s.setPhase .decode with airp := v }.complete v

/-- `GETAIRPRESSUREREFERENCE` (R153), with the rate check of R145. -/
def runGetAirPressureReference (p : Params) (s : State) : State :=
  let s := (s.issue .getAirPressureReference).sample
  if s.inRateWindow then s.complete s.airp
  else finishGetAirPressureReference
    ((s.admitRead.build p .getAirPressureReference 0).sensorExchange p .getAirPressureReference)

/-- `GETAIRPRESSUREREFERENCE` (R153). -/
def execGetAirPressureReference (s : State) : Answer := .next (runGetAirPressureReference Config.params s)

/-- `SETAIRPRESSUREREFERENCE v` from the outcome of its exchange on (R154). -/
def finishSetAirPressureReference : ExchangeOutcome × State → State :=
  conclude (boolResult false) fun s => (s.setPhase .decode).complete (boolResult true)

/-- `SETAIRPRESSUREREFERENCE v` (R154); three bytes of the operand at offsets 4 to 6 (R74 item 1). -/
def runSetAirPressureReference (p : Params) (v : Word32) (s : State) : State :=
  let s := s.issue (.setAirPressureReference v)
  if airPressureOk v then
    finishSetAirPressureReference
      (((s.build p .setAirPressureReference v).put24le 4 v).sensorExchange p .setAirPressureReference)
  else s.raise .validation (boolResult false)

/-- `SETAIRPRESSUREREFERENCE v` (R154). -/
def execSetAirPressureReference (v : Word32) (s : State) : Answer :=
  .next (runSetAirPressureReference Config.params v s)

/-- The marker check of R157: the bytes at offsets 8 to 11 are all zero. -/
def State.gasMarkersZero (s : State) : Bool :=
  s.memRead .respbuf 8 == 0 && s.memRead .respbuf 9 == 0 && s.memRead .respbuf 10 == 0 && s.memRead .respbuf 11 == 0

/-- `GETGASCONCENTRATION` from the outcome of its exchange on (R157). -/
def finishGetGasConcentration : ExchangeOutcome × State → State :=
  conclude 0 fun s =>
    let s := s.setPhase .decode
    let g := u16le (s.memRead .respbuf 4) (s.memRead .respbuf 5)
    if s.gasMarkersZero then { s with gas := g }.complete (halfResult g) else s.raise .protocol 0

/-- `GETGASCONCENTRATION` (R157), with the rate check of R145. -/
def runGetGasConcentration (p : Params) (s : State) : State :=
  let s := (s.issue .getGasConcentration).sample
  if s.inRateWindow then s.complete (halfResult s.gas)
  else finishGetGasConcentration
    ((s.admitRead.build p .getGasConcentration 0).sensorExchange p .getGasConcentration)

/-- `GETGASCONCENTRATION` (R157). -/
def execGetGasConcentration (s : State) : Answer := .next (runGetGasConcentration Config.params s)

end Sys2Proof.Machine
end

