-- ==== Sys2Proof/Machine/Dispatch.lean ====
section
/-! DEFINITION. What each command does: one arm per constructor of Instr, each a call of its meaning. -/

namespace Sys2Proof.Machine

def exec (i : Instr) (s : State) : Host.Outcome State Fault Refusal :=
  match i with
  | .beginAddr a => Sys2Proof.Machine.execBeginAddr a s
  | .isConnected => Sys2Proof.Machine.execIsConnected s
  | .getAddress => Sys2Proof.Machine.execGetAddress s
  | .setAddress a => Sys2Proof.Machine.execSetAddress a s
  | .setGenericAddress => Sys2Proof.Machine.execSetGenericAddress s
  | .setSpecificAddress => Sys2Proof.Machine.execSetSpecificAddress s
  | .useSpecificAddress => Sys2Proof.Machine.execUseSpecificAddress s
  | .getAirPressureReference => Sys2Proof.Machine.execGetAirPressureReference s
  | .setAirPressureReference v => Sys2Proof.Machine.execSetAirPressureReference v s
  | .getGasConcentration => Sys2Proof.Machine.execGetGasConcentration s
  | .setSinglePointCorrection v => Sys2Proof.Machine.execSetSinglePointCorrection v s
  | .getSinglePointCorrectionReady => Sys2Proof.Machine.execGetSinglePointCorrectionReady s
  | .openSelfCalibration => Sys2Proof.Machine.execOpenSelfCalibration s
  | .closeSelfCalibration => Sys2Proof.Machine.execCloseSelfCalibration s
  | .getSelfCalibrationStatus => Sys2Proof.Machine.execGetSelfCalibrationStatus s
  | .setSelfCalibrationHours h => Sys2Proof.Machine.execSetSelfCalibrationHours h s
  | .getSelfCalibrationHours => Sys2Proof.Machine.execGetSelfCalibrationHours s
  | .setTimeout ms => Sys2Proof.Machine.execSetTimeout ms s
  | .getTimeout => Sys2Proof.Machine.execGetTimeout s
  | .suppressError f => Sys2Proof.Machine.execSuppressError f s
  | .getSuppressError => Sys2Proof.Machine.execGetSuppressError s
  | .lastRead => Sys2Proof.Machine.execLastRead s
  | .getType => Sys2Proof.Machine.execGetType s
  | .lastError => Sys2Proof.Machine.execLastError s
  | .crc16 n => Sys2Proof.Machine.execCrc16 n s
  | .request cl rl => Sys2Proof.Machine.execRequest cl rl s
  | .wrbuf k b => Sys2Proof.Machine.execWrbuf k b s
  | .rdbuf k => Sys2Proof.Machine.execRdbuf k s

end Sys2Proof.Machine
end

