-- ==== Sys2Proof/Machine/Sequencer.lean ====
section
/-! DEFINITION. What a step does around `exec`: taking the Host's next input (spec/30_encoding.md R60,
spec/70_reset_and_hazards.md R240, R246), answering an illegal word (R67), and going on with a command whose receive
loop still runs (spec/41_request.md R119, log 1). -/

namespace Sys2Proof.Machine

/-- What follows the exchange of each command that performs one (R31); `none` for the commands that perform none. -/
def finishOf : Instr → Option (ExchangeOutcome × State → State)
  | .getAddress => some finishGetAddress
  | .setAddress a => some (finishSetAddress a)
  | .getAirPressureReference => some finishGetAirPressureReference
  | .setAirPressureReference _ => some finishSetAirPressureReference
  | .getGasConcentration => some finishGetGasConcentration
  | .setSinglePointCorrection _ => some finishSetSinglePointCorrection
  | .getSinglePointCorrectionReady => some finishGetSinglePointCorrectionReady
  | .openSelfCalibration => some finishOpenSelfCalibration
  | .closeSelfCalibration => some finishCloseSelfCalibration
  | .getSelfCalibrationStatus => some finishGetSelfCalibrationStatus
  | .setSelfCalibrationHours _ => some finishSetSelfCalibrationHours
  | .getSelfCalibrationHours => some finishGetSelfCalibrationHours
  | .request _ _ => some finishRequest
  | .beginAddr _ | .isConnected | .setGenericAddress | .setSpecificAddress | .useSpecificAddress | .setTimeout _
  | .getTimeout | .suppressError _ | .getSuppressError | .lastRead | .getType | .lastError | .crc16 _ | .wrbuf _ _
  | .rdbuf _ => none

/-- The finish of the command in `CMD`, where the state is one that a running receive loop leaves: phase `RX`, and
`RXLEN` within the buffer (R25, R111). -/
def State.suspended (s : State) : Option (ExchangeOutcome × State → State) :=
  match decode s.cmd with
  | .ok i => if s.phase = .rx ∧ s.rxlen.toNat ≤ bufCap then finishOf i else none
  | .error _ => none

/-- The command in progress goes on with its receive loop (R119, R132). -/
def resume (s : State) : Answer :=
  match s.suspended with
  | some finish => .next (finish s.receive)
  | none => .fault .noSequencerStep

/-- The Engine takes a command word: a legal one is executed, an illegal one raises `IllegalCommand` (R60, R67). -/
def runWord (w : CommandWord) (s : State) : Answer :=
  match decode w with
  | .ok i => exec i s
  | .error _ => .next (s.illegalWord w)

/-- One step with `BUSY = 1`: the reset input acts (R242), anything else the Host gives waits (R246, log 12) while the
command in progress goes on. -/
def busyStep (s : State) : Answer :=
  match s.inputs with
  | .reset :: rest => .next { s with inputs := rest }.resetInput
  | _ => resume s

/-- One step with `BUSY = 0`: the environment moves (R47), and then the Host's next command word runs; the reset input
acts at once (R240); with nothing from the Host, only the environment moves (R227). -/
def idleStep (s : State) : Answer :=
  match s.inputs with
  | [] => .next s.betweenCommands
  | .reset :: rest => .next { s with inputs := rest }.resetInput
  | .command w :: rest => runWord w { s with inputs := rest }.betweenCommands

/-- The word that the low `nbits` bits of `w` stand for, as the Host's next input, to a block that is not busy. -/
def State.placeCommand (s : State) (nbits w : Nat) : State :=
  { s with inputs := .command (commandOfTable nbits w) :: s.inputs, busy := false, phase := .idle }

end Sys2Proof.Machine
end

