-- ==== Sys2Proof/Machine/Step.lean ====
section
/-! DEFINITION. One step of the machine, and the placing of a command where the next step takes it (log 7). -/

namespace Sys2Proof.Machine

/-- One step of the Engine. -/
def step (s : State) : Host.Outcome State Fault Refusal :=
  if s.busy then busyStep s else idleStep s

/-- `s` with a command word as the Host's next input and the block free to take it (R60, R246). -/
def State.withFetchWord (s : State) (nbits w : Nat) : State := s.placeCommand nbits w

end Sys2Proof.Machine
end

