-- ==== Sys2Proof/Safety.lean ====
section
/-! DEFINITION. The terms that claims about the machine use: how a command ended, what it left unchanged, what the
environment must do for an exchange to succeed or to time out, and the invariant of every run. -/

namespace Sys2Proof.Machine

/-! ### What a command left unchanged -/

/-- The configuration registers (R10) are unchanged. -/
structure SameConfig (s t : State) : Prop where
  addr : t.addr = s.addr
  specific : t.specific = s.specific
  timeout : t.timeout = s.timeout
  suppress : t.suppress = s.suppress

/-- The cached-reading registers (R10) are unchanged. -/
structure SameCached (s t : State) : Prop where
  lastread : t.lastread = s.lastread
  gas : t.gas = s.gas
  airp : t.airp = s.airp

/-- The CRC unit's registers (R10) are unchanged. -/
structure SameCrc (s t : State) : Prop where
  crchi : t.crchi = s.crchi
  crclo : t.crclo = s.crclo
  idx : t.idx = s.idx

/-- The sequencer's registers other than `PHASE` (R10) are unchanged. -/
structure SameSequencer (s t : State) : Prop where
  txlen : t.txlen = s.txlen
  rxlen : t.rxlen = s.rxlen
  txi : t.txi = s.txi
  rxn : t.rxn = s.rxn
  tstart : t.tstart = s.tstart

/-- Every byte of a buffer reads as before. -/
def SameBytes (sp : Space) (s t : State) : Prop := ∀ a, t.memRead sp a = s.memRead sp a

/-- The Clock, both directions of the stream, and the environment's moves to come are unchanged. -/
structure SameEnvironment (s t : State) : Prop where
  clock : t.clock = s.clock
  rxq : t.rxq = s.rxq
  txlog : t.txlog = s.txlog
  moves : t.moves = s.moves
  drifts : t.drifts = s.drifts
  moveCount : t.moveCount = s.moveCount
  driftCount : t.driftCount = s.driftCount

/-- What no command writes: the Host's inputs to come and the reset count. -/
structure SameHost (s t : State) : Prop where
  inputs : t.inputs = s.inputs
  epoch : t.epoch = s.epoch

/-- Everything but the configuration and the host-interface registers and `PHASE` is unchanged. -/
structure SameOutsideConfig (s t : State) : Prop where
  cached : SameCached s t
  crc : SameCrc s t
  sequencer : SameSequencer s t
  tx : SameBytes .txbuf s t
  resp : SameBytes .respbuf s t
  environment : SameEnvironment s t
  host : SameHost s t

/-- Everything but the host-interface registers and `PHASE` is unchanged. -/
structure SameOutsideHostInterface (s t : State) : Prop where
  config : SameConfig s t
  rest : SameOutsideConfig s t

/-! ### How a command ended -/

/-- Command `i` has ended with this `RESULT` and `STATUS`, and the block is idle (R60). -/
structure Ended (i : Instr) (r : Word32) (st : Byte) (t : State) : Prop where
  cmd : t.cmd = encode i
  result : t.result = r
  status : t.status = st
  phase : t.phase = .idle
  busy : t.busy = false

/-! ### The environment's part in an exchange -/

/-- The bytes waiting in `RXQ`, and after them those that the next `k` scripted moves append. -/
def State.arrivals (s : State) (k : Nat) : List Byte := s.rxq ++ (s.moves.take k).flatMap Move.bytes

/-- How far the next `k` scripted moves advance the Clock, in milliseconds, unwrapped. -/
def State.advances (s : State) (k : Nat) : Nat := ((s.moves.take k).map fun m => m.advance.toNat).sum

/-- How many milliseconds after `TSTART`, unwrapped, deadline check number `k` (from 0) of an exchange that transmits
`cl` bytes takes its sample, by the scripted moves: `k` receive yields, and the drifts before the check's samples. -/
def State.waited (s : State) (cl k : Nat) : Nat :=
  (((s.moves.drop cl).take k).map fun m => m.advance.toNat).sum +
    (((s.drifts.drop 1).take (k + 1)).map BitVec.toNat).sum

/-- How many bytes `k` iterations of the receive loop take, one each where one is there, when `avail i` bytes have been
made available in all by iteration `i` (R121). -/
def takenOf (avail : Nat → Nat) : Nat → Nat
  | 0 => 0
  | k + 1 => if takenOf avail k < avail k then takenOf avail k + 1 else takenOf avail k

/-- How many bytes the first `k` receive iterations of an exchange that transmits `cl` bytes take, by the script. -/
def State.taken (s : State) (cl k : Nat) : Nat := takenOf (fun i => (s.arrivals (cl + i)).length) k

/-- By the script, the first `j` receive iterations of an exchange that transmits `cl` bytes pass their deadline checks,
modulo 2^32 (R120), and take `k` bytes in all, whether these were there when the last transmit yield returned or arrived
during the loop (R121, R133). -/
structure Iterates (s : State) (cl j k : Nat) : Prop where
  moves : cl + j ≤ s.moves.length
  drifts : j + 1 ≤ s.drifts.length
  inTime : ∀ i, i < j → s.waited cl i % 2 ^ 32 ≤ s.timeout.toNat
  taken : s.taken cl j = k

/-- The environment answers an exchange of `cl` bytes out and `n` bytes back in time: after some number of receive
iterations within the script all `n` bytes are taken, and no deadline check before that finds the time run out. -/
def Prompt (s : State) (cl n : Nat) : Prop := ∃ j, Iterates s cl j n

/-- The environment does not answer an exchange of `cl` bytes out and `n` bytes back in time: some deadline check within
the script, the first that does, finds more than `TIMEOUT` milliseconds gone since `TSTART`, modulo 2^32 (R120), when
only `k` bytes are taken, whether the rest never came or has come too late (R126, R129). -/
def TooLate (s : State) (cl n k : Nat) : Prop :=
  k < n ∧ ∃ j, Iterates s cl j k ∧ j + 2 ≤ s.drifts.length ∧ s.timeout.toNat < s.waited cl j % 2 ^ 32

/-- `FrameCrcOk` of a whole byte sequence (R222): its last two bytes are the CRC of the rest, low byte first. R222 gives
the predicate for two bytes or more. DESIGN CHOICE, safe (log 21): the definition is total, and what it says of a shorter
sequence (that it holds of the one byte 0xFF and of no other, and not of the empty sequence) is the model's; it is used
of frames of 4 bytes or more only. -/
def FrameCrcOk (frame : List Byte) : Prop :=
  crc16 (frame.take (frame.length - 2)) =
    u16le (frame.getD (frame.length - 2) 0) (frame.getD (frame.length - 1) 0)

/-- A frame of `cl` bytes was completed in `TXBUF` and transmitted (R70, R113 to R116): the address byte, the given
bytes between, a right CRC; the transmit log grew by it; the rest of `TXBUF` reads as before; and the CRC unit and the
transmit registers hold what this leaves. -/
structure FrameSent (s t : State) (cl : Nat) (payload : Nat → Byte) : Prop where
  log : t.txlog = s.txlog ++ t.bytes .txbuf cl
  address : t.memRead .txbuf 0 = s.addressByte
  payload : ∀ a, 1 ≤ a → a + 2 < cl → t.memRead .txbuf a = payload a
  crcOk : FrameCrcOk (t.bytes .txbuf cl)
  frame : ∀ a, cl ≤ a → t.memRead .txbuf a = s.memRead .txbuf a
  accumulators : t.crcResult = crc16 (t.bytes .txbuf (cl - 2))
  txlen : t.txlen.toNat = cl

/-- After it, `n` bytes were awaited and `k` of them collected, in arrival order, into `RESPBUF` from offset 0
(R118 to R123); the rest of `RESPBUF` reads as before; `TSTART` is the sample taken after the last transmit yield; and
what arrived and was not collected is still in `RXQ` (R124). -/
structure Collected (s t : State) (cl n k : Nat) : Prop where
  received : ∀ a, a < k → some (t.memRead .respbuf a) = (s.arrivals s.moves.length)[a]?
  frame : ∀ a, k ≤ a → t.memRead .respbuf a = s.memRead .respbuf a
  rxn : t.rxn.toNat = k
  rxlen : t.rxlen.toNat = n
  tstart : t.tstart = s.clock + BitVec.ofNat 32 (s.advances cl) + s.drifts.headD 0
  queue : ∃ m, t.moves = s.moves.drop m ∧ t.moveCount = s.moveCount + m ∧ t.rxq = (s.arrivals m).drop k

/-- The environment's move number `j` from `s` on, `txlog` being what is transmitted by then: the scripted one, or a free
one once the script is used up (log 3). -/
def State.moveAt (s : State) (j : Nat) (txlog : List Byte) : Move :=
  s.moves.getD j (Config.freeMove (s.moveCount + j) txlog)

/-- The bytes that the environment's moves between `s` and `t` append to `RXQ`, in order, where the `j`-th of these moves
follows the transmission of one more byte or, once `t.txlog` is transmitted, none (R116, R122). -/
def State.arrived (s t : State) : List Byte :=
  (List.range (t.moveCount - s.moveCount)).flatMap fun j =>
    (s.moveAt j (t.txlog.take (s.txlog.length + j + 1))).bytes

/-- Between `s` and `t` the environment has moved, and of what was in `RXQ` and arrived, in order, the first bytes are in
`RESPBUF` from offset `from0` on, up to `RXN`, and the others still in `RXQ`; the rest of `RESPBUF` reads as before
(R121, R123, R124). -/
structure Received (s t : State) (from0 : Nat) : Prop where
  moveCount : s.moveCount ≤ t.moveCount
  moves : t.moves = s.moves.drop (t.moveCount - s.moveCount)
  rxn : from0 ≤ t.rxn.toNat ∧ t.rxn.toNat ≤ t.rxlen.toNat
  enough : t.rxn.toNat - from0 ≤ (s.rxq ++ s.arrived t).length
  received : ∀ a, from0 ≤ a → a < t.rxn.toNat → some (t.memRead .respbuf a) = (s.rxq ++ s.arrived t)[a - from0]?
  queue : t.rxq = (s.rxq ++ s.arrived t).drop (t.rxn.toNat - from0)
  frame : ∀ a, a < from0 ∨ t.rxn.toNat ≤ a → t.memRead .respbuf a = s.memRead .respbuf a

/-- What every completed exchange leaves besides: the Host's inputs and the reset count. -/
structure Exchanged (s t : State) (cl n k : Nat) (payload : Nat → Byte) : Prop where
  sent : FrameSent s t cl payload
  collected : Collected s t cl n k
  host : SameHost s t

/-- The frame bytes that the template gives at offsets 1 to `len - 3` (R70, R141). -/
def templateBytes (op : SensorOp) (x : Word32) (a : Nat) : Byte := Config.params.template op x a

/-! ### Binary32 (R9, G4) -/

/-- The exponent field is not all ones: neither an infinity nor a NaN (R9). -/
def f32Finite (p : Word32) : Prop := p.extractLsb' 23 8 ≠ 0xFF

/-- `real(p)` of a finite pattern, in units of 2^-149, the smallest positive subnormal (R9). -/
def f32Units (p : Word32) : Int :=
  let e := (p.extractLsb' 23 8).toNat
  let f := (p.extractLsb' 0 23).toNat
  let m : Int := if e = 0 then f else (2 ^ 23 + f) * 2 ^ (e - 1)
  if p.getLsbD 31 then -m else m

/-! ### The end of a command with an exchange, in every environment -/

/-- The command performs an exchange from `s`: its operands pass its checks (R151, R154, R160, R166, R198), and a reading
command's sample is outside the rate window (R145). -/
def Exchanges (s : State) : Instr → Prop
  | .getAddress | .getSinglePointCorrectionReady | .openSelfCalibration | .closeSelfCalibration
  | .getSelfCalibrationStatus | .getSelfCalibrationHours => True
  | .setAddress a => a.toNat ≤ 247
  | .getAirPressureReference | .getGasConcentration => 4000 ≤ (s.sample.clock - s.lastread).toNat
  | .setAirPressureReference v => 0x442F0000 ≤ v.toNat ∧ v.toNat ≤ 0x44898000
  | .setSinglePointCorrection v => 400 ≤ v.toNat ∧ v.toNat ≤ 5000
  | .setSelfCalibrationHours h => 24 ≤ h.toNat ∧ h.toNat ≤ 720
  | .request cl rl => 4 ≤ cl.toNat ∧ cl.toNat ≤ 24 ∧ rl.toNat ≤ 24
  | .beginAddr _ | .isConnected | .setGenericAddress | .setSpecificAddress | .useSpecificAddress | .setTimeout _
  | .getTimeout | .suppressError _ | .getSuppressError | .lastRead | .getType | .lastError | .crc16 _ | .wrbuf _ _
  | .rdbuf _ => False

/-- The two lengths of the command's exchange: the bytes it transmits (R72, R198), and those it awaits (R75, R198). -/
def exchangeLengths : Instr → Nat × Nat
  | .getAddress => (Config.params.cmdLen .getAddress, 7)
  | .setAddress _ => (Config.params.cmdLen .setAddress, 8)
  | .getAirPressureReference => (Config.params.cmdLen .getAirPressureReference, 10)
  | .setAirPressureReference _ => (Config.params.cmdLen .setAirPressureReference, 10)
  | .getGasConcentration => (Config.params.cmdLen .getGasConcentration, 14)
  | .setSinglePointCorrection _ => (Config.params.cmdLen .setSinglePointCorrection, 10)
  | .getSinglePointCorrectionReady => (Config.params.cmdLen .getSinglePointCorrectionReady, 6)
  | .openSelfCalibration => (Config.params.cmdLen .openSelfCalibration, 6)
  | .closeSelfCalibration => (Config.params.cmdLen .closeSelfCalibration, 6)
  | .getSelfCalibrationStatus => (Config.params.cmdLen .getSelfCalibrationStatus, 6)
  | .setSelfCalibrationHours _ => (Config.params.cmdLen .setSelfCalibrationHours, 6)
  | .getSelfCalibrationHours => (Config.params.cmdLen .getSelfCalibrationHours, 9)
  | .request cl rl => (cl.toNat, rl.toNat)
  | .beginAddr _ | .isConnected | .setGenericAddress | .setSpecificAddress | .useSpecificAddress | .setTimeout _
  | .getTimeout | .suppressError _ | .getSuppressError | .lastRead | .getType | .lastError | .crc16 _ | .wrbuf _ _
  | .rdbuf _ => (0, 0)

/-- The byte at offset `a`, between the address byte and the CRC, of the frame the command transmits (R70, R74, R141;
R198 for `REQUEST`, which sends what `TXBUF` holds). -/
def framePayload (s : State) (a : Nat) : Instr → Byte
  | .getAddress => templateBytes .getAddress 0 a
  | .setAddress x => templateBytes .setAddress (x.setWidth 32) a
  | .getAirPressureReference => templateBytes .getAirPressureReference 0 a
  | .setAirPressureReference v =>
    if a = 4 then v.extractLsb' 0 8 else if a = 5 then v.extractLsb' 8 8 else if a = 6 then v.extractLsb' 16 8
    else templateBytes .setAirPressureReference v a
  | .getGasConcentration => templateBytes .getGasConcentration 0 a
  | .setSinglePointCorrection v => templateBytes .setSinglePointCorrection (v.setWidth 32) a
  | .getSinglePointCorrectionReady => templateBytes .getSinglePointCorrectionReady 0 a
  | .openSelfCalibration => templateBytes .openSelfCalibration 0 a
  | .closeSelfCalibration => templateBytes .closeSelfCalibration 0 a
  | .getSelfCalibrationStatus => templateBytes .getSelfCalibrationStatus 0 a
  | .setSelfCalibrationHours h =>
    if a = Config.params.hrsOff then h.extractLsb' 0 8 else if a = Config.params.hrsOff + 1 then h.extractLsb' 8 8
    else templateBytes .setSelfCalibrationHours (h.setWidth 32) a
  | .getSelfCalibrationHours => templateBytes .getSelfCalibrationHours 0 a
  | .request _ _ => s.memRead .txbuf a
  | .beginAddr _ | .isConnected | .setGenericAddress | .setSpecificAddress | .useSpecificAddress | .setTimeout _
  | .getTimeout | .suppressError _ | .getSuppressError | .lastRead | .getType | .lastError | .crc16 _ | .wrbuf _ _
  | .rdbuf _ => 0

/-- `RESULT` and `STATUS` of a command whose whole response, byte `k` of it `r k`, was received: the decode rules of R150
to R167, and R198 for `REQUEST`, which decodes nothing. (The commands of the last line await no response.) -/
def responseOutcome (r : Nat → Byte) : Instr → Word32 × Byte
  | .getAddress | .getSelfCalibrationStatus => ((r 3).setWidth 32, 0)
  | .setAddress _ | .setAirPressureReference _ | .openSelfCalibration | .closeSelfCalibration | .request _ _ => (1, 0)
  | .getAirPressureReference => ((0 : Byte) ++ r 6 ++ r 5 ++ r 4, 0)
  | .getGasConcentration =>
    if r 8 = 0 ∧ r 9 = 0 ∧ r 10 = 0 ∧ r 11 = 0 then ((r 5 ++ r 4).setWidth 32, 0) else (0, 3)
  | .setSinglePointCorrection _ => if r 7 = 0 then (0, 3) else (1, 0)
  | .getSinglePointCorrectionReady => if r 3 = 0 then (1, 0) else (0, 0)
  | .setSelfCalibrationHours _ => if r 3 = 0 then (1, 0) else (0, 3)
  | .getSelfCalibrationHours => ((r 4 ++ r 3).setWidth 32, 0)
  | .beginAddr _ | .isConnected | .setGenericAddress | .setSpecificAddress | .useSpecificAddress | .setTimeout _
  | .getTimeout | .suppressError _ | .getSuppressError | .lastRead | .getType | .lastError | .crc16 _ | .wrbuf _ _
  | .rdbuf _ => (0, 0)

/-- `RESULT` of a command whose exchange timed out: its sentinel (R144, R150 to R167, R198). -/
def timeoutResult : Instr → Word32
  | .getAddress => 0xFF
  | .getAirPressureReference => 0xC479C000
  | .getSelfCalibrationStatus => 2
  | .getSelfCalibrationHours => 0xFFFF
  | .setAddress _ | .setAirPressureReference _ | .getGasConcentration | .setSinglePointCorrection _
  | .getSinglePointCorrectionReady | .openSelfCalibration | .closeSelfCalibration | .setSelfCalibrationHours _
  | .request _ _ | .beginAddr _ | .isConnected | .setGenericAddress | .setSpecificAddress | .useSpecificAddress
  | .setTimeout _ | .getTimeout | .suppressError _ | .getSuppressError | .lastRead | .getType | .lastError | .crc16 _
  | .wrbuf _ _ | .rdbuf _ => 0

/-- The registers that only a successful response writes (R31) are unchanged. -/
structure SameDecoded (s t : State) : Prop where
  addr : t.addr = s.addr
  gas : t.gas = s.gas
  airp : t.airp = s.airp

/-- Command `i`, begun in or before `s`, has ended in success (R123): the whole response is there, `RESULT` and `STATUS`
are the command's for it, and `ADDR`, `GAS` and `AIRP` are as before but for `SETADDRESS`, a good `GETGASCONCENTRATION`
and `GETAIRPRESSUREREFERENCE` (R151, R153, R157). -/
structure EndedBySuccess (i : Instr) (s t : State) : Prop where
  rxn : t.rxn = t.rxlen
  ended : Ended i (responseOutcome (t.memRead .respbuf) i).1 (responseOutcome (t.memRead .respbuf) i).2 t
  addr : (∃ a, i = .setAddress a ∧ t.addr = a) ∨ ((∀ a, i ≠ .setAddress a) ∧ t.addr = s.addr)
  gas : if i = .getGasConcentration ∧ t.status = 0 then t.gas = t.memRead .respbuf 5 ++ t.memRead .respbuf 4
    else t.gas = s.gas
  airp : if i = .getAirPressureReference then t.airp = t.result else t.airp = s.airp

/-- Command `i`, begun in or before `s`, has ended by `TimeoutError` (R120, R126): bytes are missing, the last sample is
more than `TIMEOUT` past `TSTART`, and `RESULT` is the command's sentinel. -/
structure EndedByTimeout (i : Instr) (s t : State) : Prop where
  rxn : t.rxn < t.rxlen
  late : t.timeout < t.clock - t.tstart
  ended : Ended i (timeoutResult i) 2 t
  decoded : SameDecoded s t

/-! ### The invariant -/

/-- What a command checked before its exchange still holds of the command in `CMD`. -/
def validated : Instr → Bool
  | .setAddress a => addressOk a
  | _ => true

/-- A state in which a command waits in its receive loop (R25, R119, R250). -/
structure Waiting (s : State) : Prop where
  phase : s.phase = .rx
  txlen : 4 ≤ s.txlen.toNat ∧ s.txlen.toNat ≤ 24
  rxlen : s.rxlen.toNat ≤ 24
  unfinished : s.rxn < s.rxlen
  command : ∃ i, decode s.cmd = .ok i ∧ (finishOf i).isSome = true ∧ validated i = true

/-- Command `i`, begun in or before `s`, still waits in its receive loop, which the next step goes on with (R119, R250;
that a step may end there is the model's choice, log 1). -/
structure StillWaiting (i : Instr) (s t : State) : Prop where
  waiting : Waiting t
  busy : t.busy = true
  cmd : t.cmd = encode i
  result : t.result = s.result
  status : t.status = s.status
  decoded : SameDecoded s t

/-- The three ways in which a step leaves a command that performs an exchange. -/
def ExchangeEnd (i : Instr) (s t : State) : Prop := EndedBySuccess i s t ∨ EndedByTimeout i s t ∨ StillWaiting i s t

/-- Command `i` waits in its receive loop and the next step goes on with it: `BUSY` is 1, and the Host's next input is
not the reset (R242, R246). -/
structure Resumes (i : Instr) (s : State) : Prop where
  waiting : Waiting s
  busy : s.busy = true
  command : decode s.cmd = .ok i
  noReset : ∀ rest, s.inputs ≠ .reset :: rest

/-- How many milliseconds, unwrapped, the Clock runs from `s`, at a completion test of the receive loop, to the sample
of deadline check number `k` (from 0) from there, in every environment. -/
def State.untilCheck : State → Nat → Nat
  | s, 0 => s.nextDrift.toNat
  | s, k + 1 => s.nextDrift.toNat + s.sample.poll.nextMove.advance.toNat + State.untilCheck s.sample.poll.yield k

/-- What every state of a run from reset satisfies: canonical buffers (R41); a legal target address (R11); a zero top
byte in `AIRP` (R17); a `STATUS` code of R211; `PHASE` idle when not busy, and a waiting command when busy (R25, R27). -/
structure StateInv (s : State) : Prop where
  txbuf : Memory.wf s.txbuf
  respbuf : Memory.wf s.respbuf
  addr : s.addr.toNat ≤ 247
  airp : s.airp.extractLsb' 24 8 = 0
  status : s.status.toNat ≤ 4
  idle : s.busy = false → s.phase = .idle
  waiting : s.busy = true → Waiting s

end Sys2Proof.Machine
end

