-- ==== Sys2Proof/WellFormed.lean ====
section
/-! DEFINITION. Which commands are well formed: those whose lengths and offsets lie inside the 24-byte buffers
(spec/20_memory.md R41, spec/41_request.md R111). Every operand already fits its field by its type, so a command that
is not well formed still has a command word; the Engine answers it with `IllegalCommand` (spec/60_exceptions.md R216). -/

namespace Sys2Proof

/-- The checks of R197 to R200, one conjunct each. -/
def WellFormed : Instr → Bool
  | .crc16 n => n.toNat ≤ 24
  | .request cl rl => 4 ≤ cl.toNat && cl.toNat ≤ 24 && rl.toNat ≤ 24
  | .wrbuf i _ => i.toNat < 24
  | .rdbuf i => i.toNat < 24
  | .beginAddr _ | .isConnected | .getAddress | .setAddress _ | .setGenericAddress | .setSpecificAddress
  | .useSpecificAddress | .getAirPressureReference | .setAirPressureReference _ | .getGasConcentration
  | .setSinglePointCorrection _ | .getSinglePointCorrectionReady | .openSelfCalibration | .closeSelfCalibration
  | .getSelfCalibrationStatus | .setSelfCalibrationHours _ | .getSelfCalibrationHours | .setTimeout _ | .getTimeout
  | .suppressError _ | .getSuppressError | .lastRead | .getType | .lastError => true

end Sys2Proof
end

