-- ==== Sys2Proof/Certificates/Slice0/Obligations.lean ====
section
/-! DEFINITION. What is claimed of the machine, one proposition each; OBLIGATIONS.json says which rule each one
formalises. `s` is the state before, `t` the state after. -/

open Sys2Proof Sys2Proof.Machine

/-! ### Command words -/

/-- Every command's word decodes to that command, every operand at every value (R61 to R66). -/
def Obligations.EveryEncodedCommandDecodesToItself : Prop :=
  ∀ i : Instr, decode (encode i) = .ok i

/-- A command has no other word than its own (R62, R67). -/
def Obligations.EveryLegalWordIsItsCommandsEncoding : Prop :=
  ∀ (w : CommandWord) (i : Instr), decode w = .ok i → encode i = w

/-- The decoder selects by the masks and matches of spec/opcode_table.json: a word decodes to a command of a row
exactly when it selects that row. -/
def Obligations.DecoderAgreesWithMaskAndMatchRows : Prop :=
  (∀ (w : CommandWord) (i : Instr), decode w = .ok i → w &&& (rowOf i).mask = (rowOf i).value) ∧
    ∀ (w : CommandWord) (j : Instr), w &&& (rowOf j).mask = (rowOf j).value →
      ∃ i, decode w = .ok i ∧ rowOf i = rowOf j

/-- Words written out from R66 and R62, one or two a family, and what they stand for. -/
def Obligations.SampleWordsDecodeToTheirCommands : Prop :=
  decode 0x01000000F8#40 = .ok (.beginAddr 248) ∧ decode 0x1000000000#40 = .ok .getAddress ∧
    decode 0x21442F0000#40 = .ok (.setAirPressureReference 0x442F0000) ∧
    decode 0x35000002D0#40 = .ok (.setSelfCalibrationHours 720) ∧
    decode 0x4200000001#40 = .ok (.suppressError true) ∧ decode 0x5100000807#40 = .ok (.request 8 7) ∧
    decode 0x52000017AA#40 = .ok (.wrbuf 23 0xAA) ∧
    decode 0x4200000002#40 = .error (.mustBeZeroBitSet 0x42) ∧
    decode 0x1500000000#40 = .error (.unallocatedOpcode 0x15)

/-! ### The step -/

/-- With the block not busy and a legal word next from the Host, a step is the environment's move between two commands
and then `exec` of the decoded command (R47, R60). That one step is one whole command (log 1) and that exactly one move of
the environment stands between two commands (log 15) are the model's choices, DESIGN CHOICE both. -/
def Obligations.StepRunsTheDecodedCommand : Prop :=
  ∀ (s : State) (w : CommandWord) (rest : List Input) (i : Instr),
    s.busy = false → s.inputs = .command w :: rest → decode w = .ok i →
      step s = exec i { s with inputs := rest }.betweenCommands

/-- A word placed by `withFetchWord` is the one the next step runs (log 7: the model's own convention), after the one
move of the environment between two commands (log 15). -/
def Obligations.PlacedWordIsRunByTheNextStep : Prop :=
  ∀ (s : State) (w : Nat) (i : Instr), decode (commandOfTable 40 w) = .ok i →
    step (s.withFetchWord 40 w) = exec i { s with busy := false, phase := .idle }.betweenCommands

/-- An illegal word, one that no row of the command table selects: no register other than `CMD`, `RESULT`, `STATUS`,
`BUSY` changes, nothing is transmitted, `RESULT <- 0`, `STATUS <- 4` (R67); and the word of `ISCONNECTED` is a legal one,
whose execution is refused. The state before is that after the environment's one move between two commands, which is the
model's choice (R47; log 15, DESIGN CHOICE). -/
def Obligations.IllegalWordRaisesIllegalCommand : Prop :=
  (∀ (s : State) (w : CommandWord) (rest : List Input), s.busy = false → s.inputs = .command w :: rest →
    (∀ i, w &&& (rowOf i).mask ≠ (rowOf i).value) →
      ∃ t, step s = .next t ∧ t.cmd = w ∧ t.result = 0 ∧ t.status = 4 ∧ t.phase = .idle ∧ t.busy = false ∧
        SameOutsideHostInterface { s with inputs := rest }.betweenCommands t) ∧
    decode 0x0200000000#40 = .ok .isConnected ∧ ∀ s : State, exec .isConnected s = .refused .connectionQuery

/-- With nothing from the Host, only the environment moves: no register and no buffer byte changes, nothing is
transmitted, and bytes are only appended to `RXQ` (R7, R47, R227; that a step without input is one move of the
environment is the model's choice, log 15). -/
def Obligations.IdleStepMovesOnlyTheEnvironment : Prop :=
  ∀ s : State, s.busy = false → s.inputs = [] →
    ∃ t, step s = .next t ∧ SameConfig s t ∧ SameCached s t ∧ SameCrc s t ∧ SameSequencer s t ∧
      SameBytes .txbuf s t ∧ SameBytes .respbuf s t ∧ SameHost s t ∧ t.cmd = s.cmd ∧ t.result = s.result ∧
      t.status = s.status ∧ t.phase = s.phase ∧ t.busy = false ∧ t.txlog = s.txlog ∧
      ∃ bytes, t.rxq = s.rxq ++ bytes

/-- A command whose receive loop still runs goes on with it at the next step, whatever command the Host has waiting,
and then finishes as its own rule says (R119, R246; that a step stops there is the model's choice, log 1). -/
def Obligations.BusyStepResumesTheReceiveLoop : Prop :=
  ∀ (s : State) (i : Instr) (finish : ExchangeOutcome × State → State),
    s.busy = true → s.phase = .rx → s.rxlen.toNat ≤ 24 → decode s.cmd = .ok i → finishOf i = some finish →
      (∀ rest, s.inputs ≠ .reset :: rest) →
      step s = .next (finish s.receive) ∧ (finish s.receive).inputs = s.inputs

/-- `ISCONNECTED` has no semantics and is refused (R182). -/
def Obligations.IsConnectedIsRefused : Prop :=
  ∀ s : State, exec .isConnected s = .refused .connectionQuery

/-! ### Reset and the invariant -/

/-- What the spec gives a value at reset has it (R32): the model's values for the rest are not stated here. -/
def Obligations.ResetValuesAreThoseOfTheTable : Prop :=
  State.reset.addr = Config.params.defaultAddr ∧ State.reset.specific = false ∧ State.reset.timeout = 100 ∧
    State.reset.suppress = false ∧ State.reset.lastread = 0 ∧ State.reset.gas = 0 ∧ State.reset.airp = 0 ∧
    State.reset.phase = .idle ∧ State.reset.status = 0 ∧ State.reset.busy = false ∧ State.reset.txlog = []

/-- The reset input acts in every state, busy or not, gives the same values, and does not touch the Clock or `RXQ`
(R240, R241, R242). -/
def Obligations.ResetInputRestoresTheResetValues : Prop :=
  ∀ (s : State) (rest : List Input), s.inputs = .reset :: rest →
    ∃ t, step s = .next t ∧ t.addr = Config.params.defaultAddr ∧ t.specific = false ∧ t.timeout = 100 ∧
      t.suppress = false ∧ t.lastread = 0 ∧ t.gas = 0 ∧ t.airp = 0 ∧ t.phase = .idle ∧ t.status = 0 ∧
      t.busy = false ∧ t.txlog = [] ∧ t.clock = s.clock ∧ t.rxq = s.rxq ∧ t.inputs = rest

/-- The invariant holds after reset (R32). -/
def Obligations.ResetStateMeetsTheInvariant : Prop :=
  StateInv State.reset

/-- Every step keeps the invariant: canonical buffers, a legal target address, a zero top byte in `AIRP`, a `STATUS` of
R211, and `PHASE` in agreement with `BUSY` (R11, R17, R41, R211). R25 lets a busy block be in other phases than `RX`: that
a busy state at the end of a step is in phase `RX`, with a command that waits in its receive loop, is the model's choice
(log 1, DESIGN CHOICE: one step is one command; log 19, DEDUCED: the phases inside a step are not visible). -/
def Obligations.EveryStepKeepsTheInvariant : Prop :=
  ∀ s t : State, StateInv s → step s = .next t → StateInv t

/-- Under the invariant no step faults, and the only command refused is `ISCONNECTED` (R182, R219). -/
def Obligations.InvariantStatesNeverFault : Prop :=
  ∀ s : State, StateInv s →
    (∃ t, step s = .next t) ∨
      (step s = .refused .connectionQuery ∧ ∃ w rest, s.inputs = .command w :: rest ∧ decode w = .ok .isConnected)

/-! ### The CRC unit -/

/-- Both tables are generated by the formula of R97. -/
def Obligations.CrcTablesFollowTheFormula : Prop :=
  ∀ i : Byte, hiEntry i = (crcFormula i).extractLsb' 0 8 ∧ loEntry i = (crcFormula i).extractLsb' 8 8

/-- One step is the byte-wise CRC step on the 16-bit value: `c' = (c >> 8) xor W((c xor b)[7:0])` (R98 (a)). -/
def Obligations.CrcStepIsTheReflectedPolynomialStep : Prop :=
  ∀ (a : Accumulators) (b : Byte),
    crcValue (crcStep a b) =
      (crcValue a >>> 8) ^^^ crcFormula ((crcValue a ^^^ b.setWidth 16).extractLsb' 0 8)

/-- A sequence followed by its own CRC, low byte first, has CRC 0 (R98 (c)). -/
def Obligations.SequenceWithItsCrcHasCrcZero : Prop :=
  ∀ bytes : List Byte,
    crc16 (bytes ++ [(crc16 bytes).extractLsb' 0 8, (crc16 bytes).extractLsb' 8 8]) = 0

/-- The result is `CRCHI * 256 + CRCLO`, and the CRC of nothing is 0xFFFF, whatever `TXBUF` holds (R94). -/
def Obligations.CrcOfNothingIsAllOnes : Prop :=
  (∀ s : State, s.crcResult.toNat = s.crchi.toNat * 256 + s.crclo.toNat) ∧ crc16 [] = 0xFFFF ∧
    ∀ s : State, ∃ t, exec (.crc16 0) s = .next t ∧ Ended (.crc16 0) 0xFFFF 0 t

/-- `CRC16 n` returns the CRC of `TXBUF[0, n)` and writes the CRC unit's registers and nothing else; a length above the
capacity is refused with `IllegalCommand` and no other effect (R197). -/
def Obligations.Crc16CommandReturnsTheCrcOfTxbuf : Prop :=
  ∀ (n : Byte) (s : State),
    (n.toNat ≤ 24 →
      ∃ t, exec (.crc16 n) s = .next t ∧ Ended (.crc16 n) (halfResult (crc16 (s.bytes .txbuf n.toNat))) 0 t ∧
        t.crcResult = crc16 (s.bytes .txbuf n.toNat) ∧ SameConfig s t ∧ SameCached s t ∧ SameSequencer s t ∧
        SameBytes .txbuf s t ∧ SameBytes .respbuf s t ∧ SameEnvironment s t ∧ SameHost s t) ∧
    (24 < n.toNat →
      ∃ t, exec (.crc16 n) s = .next t ∧ Ended (.crc16 n) 0 4 t ∧ SameOutsideHostInterface s t)

/-! ### Buffer accesses and configuration -/

/-- `WRBUF i, b` (R199). -/
def Obligations.WrbufStoresOneByte : Prop :=
  ∀ (i b : Byte) (s : State),
    (i.toNat < 24 →
      ∃ t, exec (.wrbuf i b) s = .next t ∧ Ended (.wrbuf i b) 0 0 t ∧ t.memRead .txbuf i.toNat = b ∧
        (∀ a, a ≠ i.toNat → t.memRead .txbuf a = s.memRead .txbuf a) ∧ SameBytes .respbuf s t ∧
        SameConfig s t ∧ SameCached s t ∧ SameCrc s t ∧ SameSequencer s t ∧ SameEnvironment s t ∧ SameHost s t) ∧
    (24 ≤ i.toNat →
      ∃ t, exec (.wrbuf i b) s = .next t ∧ Ended (.wrbuf i b) 0 4 t ∧ SameOutsideHostInterface s t)

/-- `RDBUF i` (R200). -/
def Obligations.RdbufReturnsOneByte : Prop :=
  ∀ (i : Byte) (s : State),
    (i.toNat < 24 →
      ∃ t, exec (.rdbuf i) s = .next t ∧ Ended (.rdbuf i) ((s.memRead .respbuf i.toNat).setWidth 32) 0 t ∧
        SameOutsideHostInterface s t) ∧
    (24 ≤ i.toNat →
      ∃ t, exec (.rdbuf i) s = .next t ∧ Ended (.rdbuf i) 0 4 t ∧ SameOutsideHostInterface s t)

/-- `BEGIN a` (R181). -/
def Obligations.BeginValidatesAndStoresTheAddress : Prop :=
  ∀ (a : Byte) (s : State),
    (a.toNat ≤ 247 →
      ∃ t, exec (.beginAddr a) s = .next t ∧ Ended (.beginAddr a) 1 0 t ∧ t.addr = a ∧ t.specific = s.specific ∧
        t.timeout = s.timeout ∧ t.suppress = s.suppress ∧ SameOutsideConfig s t) ∧
    (247 < a.toNat →
      ∃ t, exec (.beginAddr a) s = .next t ∧ Ended (.beginAddr a) 0 1 t ∧ SameOutsideHostInterface s t)

/-- `SETGENERICADDRESS`, `SETSPECIFICADDRESS` and `USESPECIFICADDRESS` (R184, R185, R186). -/
def Obligations.AddressingModeIsSetAndReadBack : Prop :=
  ∀ s : State,
    (∃ t, exec .setGenericAddress s = .next t ∧ Ended .setGenericAddress 0 0 t ∧ t.specific = false ∧
      t.addr = s.addr ∧ t.timeout = s.timeout ∧ t.suppress = s.suppress ∧ SameOutsideConfig s t) ∧
    (∃ t, exec .setSpecificAddress s = .next t ∧ Ended .setSpecificAddress 0 0 t ∧ t.specific = true ∧
      t.addr = s.addr ∧ t.timeout = s.timeout ∧ t.suppress = s.suppress ∧ SameOutsideConfig s t) ∧
    ∃ t, exec .useSpecificAddress s = .next t ∧ Ended .useSpecificAddress (if s.specific then 1 else 0) 0 t ∧
      SameOutsideHostInterface s t

/-- `SETTIMEOUT` and `GETTIMEOUT` (R188, R189). -/
def Obligations.TimeoutIsSetAndReadBack : Prop :=
  ∀ s : State,
    (∀ ms, ∃ t, exec (.setTimeout ms) s = .next t ∧ Ended (.setTimeout ms) 0 0 t ∧ t.timeout = ms ∧
      t.addr = s.addr ∧ t.specific = s.specific ∧ t.suppress = s.suppress ∧ SameOutsideConfig s t) ∧
    ∃ t, exec .getTimeout s = .next t ∧ Ended .getTimeout s.timeout 0 t ∧ SameOutsideHostInterface s t

/-- `SUPPRESSERROR` and `GETSUPPRESSERROR` (R190, R191). -/
def Obligations.SuppressFlagIsSetAndReadBack : Prop :=
  ∀ s : State,
    (∀ f, ∃ t, exec (.suppressError f) s = .next t ∧ Ended (.suppressError f) 0 0 t ∧ t.suppress = f ∧
      t.addr = s.addr ∧ t.specific = s.specific ∧ t.timeout = s.timeout ∧ SameOutsideConfig s t) ∧
    ∃ t, exec .getSuppressError s = .next t ∧ Ended .getSuppressError (if s.suppress then 1 else 0) 0 t ∧
      SameOutsideHostInterface s t

/-- `LASTREAD`, `GETTYPE` and `LASTERROR`; the last leaves `STATUS` as it is (R192, R194, R196). -/
def Obligations.StatusReadersReturnTheirRegisters : Prop :=
  ∀ s : State,
    (∃ t, exec .lastRead s = .next t ∧ Ended .lastRead s.lastread 0 t ∧ SameOutsideHostInterface s t) ∧
    (∃ t, exec .getType s = .next t ∧ Ended .getType (Config.params.deviceType.setWidth 32) 0 t ∧
      SameOutsideHostInterface s t) ∧
    ∃ t, exec .lastError s = .next t ∧ Ended .lastError (s.status.setWidth 32) s.status t ∧
      SameOutsideHostInterface s t

/-! ### The exchange -/

/-- `REQUEST cl, rl`: bad lengths refused; success with the raw response in `RESPBUF` when the environment answers in
time, be it before the receive loop or during it; failure by timeout, with the `k` bytes taken by then, when it does not,
be it that bytes never come or that they come too late (R198, R129). -/
def Obligations.RequestExchangesTheFrameInTxbuf : Prop :=
  ∀ (cl rl : Byte) (s : State),
    ((cl.toNat < 4 ∨ 24 < cl.toNat ∨ 24 < rl.toNat) →
      ∃ t, exec (.request cl rl) s = .next t ∧ Ended (.request cl rl) 0 4 t ∧ SameOutsideHostInterface s t) ∧
    (4 ≤ cl.toNat → cl.toNat ≤ 24 → rl.toNat ≤ 24 →
      (Prompt s cl.toNat rl.toNat →
        ∃ t, exec (.request cl rl) s = .next t ∧ Ended (.request cl rl) 1 0 t ∧ SameConfig s t ∧ SameCached s t ∧
          Exchanged s t cl.toNat rl.toNat rl.toNat (s.memRead .txbuf)) ∧
      (∀ k, TooLate s cl.toNat rl.toNat k →
        ∃ t, exec (.request cl rl) s = .next t ∧ Ended (.request cl rl) 0 2 t ∧ SameConfig s t ∧ SameCached s t ∧
          Exchanged s t cl.toNat rl.toNat k (s.memRead .txbuf)))

/-- Whatever command transmits, its frame starts with `ADDR` in unicast mode and with 0xFE in broadcast mode, both read
before the exchange and written over what stood at offset 0 (R113). -/
def Obligations.FirstTransmittedByteFollowsTheAddressingMode : Prop :=
  ∀ (i : Instr) (s t : State), exec i s = .next t → t.txlog ≠ s.txlog →
    t.txlog[s.txlog.length]? = some (if s.specific then s.addr else 0xFE) ∧
      t.memRead .txbuf 0 = if s.specific then s.addr else 0xFE

/-- Whatever the command, the state and the environment: what a command hands to the stream is nothing, or one whole
frame of 4 to 24 bytes that starts with the address byte and ends with its right CRC, low byte first, so that its CRC
over the whole is 0 (R113, R115, R116). -/
def Obligations.EveryTransmissionIsOneFrameWithARightCrc : Prop :=
  ∀ (i : Instr) (s t : State), exec i s = .next t →
    t.txlog = s.txlog ∨
      ∃ frame, t.txlog = s.txlog ++ frame ∧ (finishOf i).isSome = true ∧ 4 ≤ frame.length ∧ frame.length ≤ 24 ∧
        frame.head? = some s.addressByte ∧ FrameCrcOk frame ∧ crc16 frame = 0

/-- An awaited length of 0: the exchange transmits and succeeds at once, with no poll and no yield but the transmit
phase's, and leaves `RESPBUF` alone, in every environment; no sensor operation awaits 0 bytes (R127). -/
def Obligations.ZeroResponseLengthSucceedsWithoutPolling : Prop :=
  (∀ op, respLen op ≠ 0) ∧
  ∀ (cl : Byte) (s : State), 4 ≤ cl.toNat → cl.toNat ≤ 24 →
    ∃ t, exec (.request cl 0) s = .next t ∧ Ended (.request cl 0) 1 0 t ∧
      FrameSent s t cl.toNat (s.memRead .txbuf) ∧ SameBytes .respbuf s t ∧ t.rxn = 0 ∧
      t.moveCount = s.moveCount + cl.toNat ∧ t.driftCount = s.driftCount + 1 ∧ t.tstart = t.clock ∧
      SameConfig s t ∧ SameCached s t ∧ SameHost s t

/-- Every end of a `REQUEST`, in every environment, in its first step and in every later one: success with all bytes
collected; a timeout, at a Clock reading more than `TIMEOUT` past `TSTART` and with bytes missing; or still in its receive
loop (R120, R123, R261; that a step may end there is the model's choice, log 1). -/
def Obligations.RequestEndsBySuccessTimeoutOrWaiting : Prop :=
  ∀ (cl rl : Byte) (s t : State),
    (WellFormed (.request cl rl) = true ∧ exec (.request cl rl) s = .next t ∨
      Resumes (.request cl rl) s ∧ step s = .next t) →
    (Ended (.request cl rl) 1 0 t ∧ t.rxn = t.rxlen) ∨
    (Ended (.request cl rl) 0 2 t ∧ t.rxn < t.rxlen ∧ t.timeout < t.clock - t.tstart) ∨
    (Waiting t ∧ t.busy = true ∧ t.cmd = encode (.request cl rl))

/-- At the largest `TIMEOUT` no deadline check fires and no exchange ends by timeout: a command that performs one, in its
first step or in a later one, ends with the whole response, or is still in its receive loop (R128, R250; that a step may
end there is the model's choice, log 1). -/
def Obligations.LargestTimeoutNeverExpires : Prop :=
  ∀ (s : State), s.timeout = 0xFFFFFFFF →
    s.deadlinePassed = false ∧
      (∀ (cl rl : Byte) (t : State), WellFormed (.request cl rl) = true → exec (.request cl rl) s = .next t →
        Ended (.request cl rl) 1 0 t ∨ (t.busy = true ∧ t.phase = .rx ∧ t.rxn < t.rxlen)) ∧
      ∀ (i : Instr) (t : State), (Exchanges s i ∧ exec i s = .next t ∨ Resumes i s ∧ step s = .next t) →
        EndedBySuccess i s t ∨ StillWaiting i s t

/-- How many receive iterations one step takes makes no difference: `m + n` of them are `m` and then, if the loop still
waits, `n` more (R119, R132; log 1). -/
def Obligations.ReceiveIterationsMayBeSplitBetweenSteps : Prop :=
  ∀ (m n : Nat) (s : State),
    State.receiveLoop (m + n) s =
      match State.receiveLoop m s with
      | (.waiting, t) => State.receiveLoop n t
      | r => r

/-- No byte is discarded or reordered: a command that performs no exchange leaves `RXQ` and `RESPBUF` alone, and after
any other, what was in `RXQ` and what the environment's moves meanwhile appended to it is, in order, the bytes collected
into `RESPBUF` from offset 0 on and then the bytes still in `RXQ` (R121, R123, R124). -/
def Obligations.ReceivedBytesAreKeptInOrder : Prop :=
  ∀ (i : Instr) (s t : State), exec i s = .next t →
    (t.txlog = s.txlog ∧ t.rxq = s.rxq ∧ t.moves = s.moves ∧ t.moveCount = s.moveCount ∧ SameBytes .respbuf s t) ∨
      ((finishOf i).isSome = true ∧ s.moveCount < t.moveCount ∧ Received s t 0)

/-- The response's address, function code and CRC are not examined: two runs of `GETADDRESS` whose waiting bytes are
equally many and agree at offset 3 end alike (R125, R150). -/
def Obligations.GetAddressIgnoresAllButByteThree : Prop :=
  ∀ (s : State) (q q' : List Byte), q.length = q'.length → q[3]? = q'[3]? →
    ∃ t t', exec .getAddress { s with rxq := q } = .next t ∧ exec .getAddress { s with rxq := q' } = .next t' ∧
      t'.result = t.result ∧ t'.status = t.status ∧ t'.busy = t.busy ∧ t'.phase = t.phase ∧ t'.txlog = t.txlog ∧
      t'.clock = t.clock ∧ t'.rxn = t.rxn

/-! ### Sensor operations -/

/-- `GETADDRESS` (R150). -/
def Obligations.GetAddressReturnsByteThree : Prop :=
  ∀ s : State,
    (Prompt s (Config.params.cmdLen .getAddress) 7 →
      ∃ t, exec .getAddress s = .next t ∧ Ended .getAddress ((t.memRead .respbuf 3).setWidth 32) 0 t ∧
        SameConfig s t ∧ SameCached s t ∧
        Exchanged s t (Config.params.cmdLen .getAddress) 7 7 (templateBytes .getAddress 0)) ∧
    (∀ k, TooLate s (Config.params.cmdLen .getAddress) 7 k →
      ∃ t, exec .getAddress s = .next t ∧ Ended .getAddress 0xFF 2 t ∧ SameConfig s t ∧ SameCached s t ∧
        Exchanged s t (Config.params.cmdLen .getAddress) 7 k (templateBytes .getAddress 0))

/-- `SETADDRESS a` (R151). -/
def Obligations.SetAddressValidatesAndFollowsOnSuccess : Prop :=
  ∀ (a : Byte) (s : State),
    (247 < a.toNat →
      ∃ t, exec (.setAddress a) s = .next t ∧ Ended (.setAddress a) 0 1 t ∧ SameOutsideHostInterface s t) ∧
    (a.toNat ≤ 247 → Prompt s (Config.params.cmdLen .setAddress) 8 →
      ∃ t, exec (.setAddress a) s = .next t ∧ Ended (.setAddress a) 1 0 t ∧ t.addr = a ∧ t.specific = s.specific ∧
        t.timeout = s.timeout ∧ t.suppress = s.suppress ∧ SameCached s t ∧
        Exchanged s t (Config.params.cmdLen .setAddress) 8 8 (templateBytes .setAddress (a.setWidth 32))) ∧
    (a.toNat ≤ 247 → ∀ k, TooLate s (Config.params.cmdLen .setAddress) 8 k →
      ∃ t, exec (.setAddress a) s = .next t ∧ Ended (.setAddress a) 0 2 t ∧ SameConfig s t ∧ SameCached s t ∧
        Exchanged s t (Config.params.cmdLen .setAddress) 8 k (templateBytes .setAddress (a.setWidth 32)))

/-- `GETAIRPRESSUREREFERENCE` (R153): cached inside the rate window; live outside it. -/
def Obligations.GetAirPressureDecodesThreeBytesOrReturnsTheCache : Prop :=
  ∀ s : State,
    (s.sample.clock - s.lastread < 4000 →
      ∃ t, exec .getAirPressureReference s = .next t ∧ Ended .getAirPressureReference s.airp 0 t ∧
        SameOutsideHostInterface s.sample t) ∧
    (¬ s.sample.clock - s.lastread < 4000 → Prompt s.sample (Config.params.cmdLen .getAirPressureReference) 10 →
      ∃ t, exec .getAirPressureReference s = .next t ∧ Ended .getAirPressureReference t.airp 0 t ∧
        t.airp = (0 : Byte) ++ t.memRead .respbuf 6 ++ t.memRead .respbuf 5 ++ t.memRead .respbuf 4 ∧
        t.lastread = s.sample.clock ∧ t.gas = s.gas ∧ SameConfig s t ∧
        Exchanged s.sample t (Config.params.cmdLen .getAirPressureReference) 10 10
          (templateBytes .getAirPressureReference 0)) ∧
    (¬ s.sample.clock - s.lastread < 4000 → ∀ k, TooLate s.sample (Config.params.cmdLen .getAirPressureReference) 10 k →
      ∃ t, exec .getAirPressureReference s = .next t ∧ Ended .getAirPressureReference 0xC479C000 2 t ∧
        t.lastread = s.sample.clock ∧ t.gas = s.gas ∧ t.airp = s.airp ∧ SameConfig s t ∧
        Exchanged s.sample t (Config.params.cmdLen .getAirPressureReference) 10 k
          (templateBytes .getAirPressureReference 0))

/-- `SETAIRPRESSUREREFERENCE v`, the range check in the integer form R156 gives it (R154, R156; R74 item 1). -/
def Obligations.SetAirPressureValidatesAndPacksThreeBytes : Prop :=
  ∀ (v : Word32) (s : State),
    (v < 0x442F0000 ∨ 0x44898000 < v →
      ∃ t, exec (.setAirPressureReference v) s = .next t ∧ Ended (.setAirPressureReference v) 0 1 t ∧
        SameOutsideHostInterface s t) ∧
    (0x442F0000 ≤ v → v ≤ 0x44898000 → Prompt s (Config.params.cmdLen .setAirPressureReference) 10 →
      ∃ t, exec (.setAirPressureReference v) s = .next t ∧ Ended (.setAirPressureReference v) 1 0 t ∧ SameConfig s t ∧
        SameCached s t ∧
        Exchanged s t (Config.params.cmdLen .setAirPressureReference) 10 10 fun a =>
          if a = 4 then v.extractLsb' 0 8 else if a = 5 then v.extractLsb' 8 8 else if a = 6 then v.extractLsb' 16 8
          else templateBytes .setAirPressureReference v a) ∧
    (0x442F0000 ≤ v → v ≤ 0x44898000 → ∀ k, TooLate s (Config.params.cmdLen .setAirPressureReference) 10 k →
      ∃ t, exec (.setAirPressureReference v) s = .next t ∧ Ended (.setAirPressureReference v) 0 2 t ∧
        SameConfig s t ∧ SameCached s t ∧
        Exchanged s t (Config.params.cmdLen .setAirPressureReference) 10 k fun a =>
          if a = 4 then v.extractLsb' 0 8 else if a = 5 then v.extractLsb' 8 8 else if a = 6 then v.extractLsb' 16 8
          else templateBytes .setAirPressureReference v a)

/-- `GETGASCONCENTRATION` (R157): cached inside the rate window; live outside it, with the marker check before the
decode. -/
def Obligations.GetGasChecksMarkersAndDecodesOrReturnsTheCache : Prop :=
  ∀ s : State,
    (s.sample.clock - s.lastread < 4000 →
      ∃ t, exec .getGasConcentration s = .next t ∧ Ended .getGasConcentration (s.gas.setWidth 32) 0 t ∧
        SameOutsideHostInterface s.sample t) ∧
    (¬ s.sample.clock - s.lastread < 4000 → Prompt s.sample (Config.params.cmdLen .getGasConcentration) 14 →
      ∃ t, exec .getGasConcentration s = .next t ∧
        Exchanged s.sample t (Config.params.cmdLen .getGasConcentration) 14 14 (templateBytes .getGasConcentration 0) ∧
        SameConfig s t ∧ t.lastread = s.sample.clock ∧ t.airp = s.airp ∧
        if (s.arrivals s.moves.length)[8]? = some 0 ∧ (s.arrivals s.moves.length)[9]? = some 0 ∧
            (s.arrivals s.moves.length)[10]? = some 0 ∧ (s.arrivals s.moves.length)[11]? = some 0
        then Ended .getGasConcentration (t.gas.setWidth 32) 0 t ∧
          t.gas = t.memRead .respbuf 5 ++ t.memRead .respbuf 4
        else Ended .getGasConcentration 0 3 t ∧ t.gas = s.gas) ∧
    (¬ s.sample.clock - s.lastread < 4000 → ∀ k, TooLate s.sample (Config.params.cmdLen .getGasConcentration) 14 k →
      ∃ t, exec .getGasConcentration s = .next t ∧ Ended .getGasConcentration 0 2 t ∧
        t.lastread = s.sample.clock ∧ t.gas = s.gas ∧ t.airp = s.airp ∧ SameConfig s t ∧
        Exchanged s.sample t (Config.params.cmdLen .getGasConcentration) 14 k (templateBytes .getGasConcentration 0))

/-- `SETSINGLEPOINTCORRECTION v` (R160). -/
def Obligations.SetSinglePointCorrectionValidatesAndChecksByteSeven : Prop :=
  ∀ (v : Half) (s : State),
    (v.toNat < 400 ∨ 5000 < v.toNat →
      ∃ t, exec (.setSinglePointCorrection v) s = .next t ∧ Ended (.setSinglePointCorrection v) 0 1 t ∧
        SameOutsideHostInterface s t) ∧
    (400 ≤ v.toNat → v.toNat ≤ 5000 → Prompt s (Config.params.cmdLen .setSinglePointCorrection) 10 →
      ∃ t, exec (.setSinglePointCorrection v) s = .next t ∧ SameConfig s t ∧ SameCached s t ∧
        Exchanged s t (Config.params.cmdLen .setSinglePointCorrection) 10 10
          (templateBytes .setSinglePointCorrection (v.setWidth 32)) ∧
        if (s.arrivals s.moves.length)[7]? = some 0 then Ended (.setSinglePointCorrection v) 0 3 t
        else Ended (.setSinglePointCorrection v) 1 0 t) ∧
    (400 ≤ v.toNat → v.toNat ≤ 5000 → ∀ k, TooLate s (Config.params.cmdLen .setSinglePointCorrection) 10 k →
      ∃ t, exec (.setSinglePointCorrection v) s = .next t ∧ Ended (.setSinglePointCorrection v) 0 2 t ∧
        SameConfig s t ∧ SameCached s t ∧
        Exchanged s t (Config.params.cmdLen .setSinglePointCorrection) 10 k
          (templateBytes .setSinglePointCorrection (v.setWidth 32)))

/-- `GETSINGLEPOINTCORRECTIONREADY` (R161). -/
def Obligations.CorrectionReadyMeansByteThreeIsZero : Prop :=
  ∀ s : State,
    (Prompt s (Config.params.cmdLen .getSinglePointCorrectionReady) 6 →
      ∃ t, exec .getSinglePointCorrectionReady s = .next t ∧
        Ended .getSinglePointCorrectionReady (if t.memRead .respbuf 3 = 0 then 1 else 0) 0 t ∧ SameConfig s t ∧
        SameCached s t ∧
        Exchanged s t (Config.params.cmdLen .getSinglePointCorrectionReady) 6 6
          (templateBytes .getSinglePointCorrectionReady 0)) ∧
    (∀ k, TooLate s (Config.params.cmdLen .getSinglePointCorrectionReady) 6 k →
      ∃ t, exec .getSinglePointCorrectionReady s = .next t ∧ Ended .getSinglePointCorrectionReady 0 2 t ∧
        SameConfig s t ∧ SameCached s t ∧
        Exchanged s t (Config.params.cmdLen .getSinglePointCorrectionReady) 6 k
          (templateBytes .getSinglePointCorrectionReady 0))

/-- `OPENSELFCALIBRATION` and `CLOSESELFCALIBRATION`: success when a response is received, whatever it says (R163,
R164). -/
def Obligations.SelfCalibrationSwitchesSucceedOnAnyResponse : Prop :=
  ∀ s : State,
    (Prompt s (Config.params.cmdLen .openSelfCalibration) 6 →
      ∃ t, exec .openSelfCalibration s = .next t ∧ Ended .openSelfCalibration 1 0 t ∧ SameConfig s t ∧ SameCached s t ∧
        Exchanged s t (Config.params.cmdLen .openSelfCalibration) 6 6 (templateBytes .openSelfCalibration 0)) ∧
    (∀ k, TooLate s (Config.params.cmdLen .openSelfCalibration) 6 k →
      ∃ t, exec .openSelfCalibration s = .next t ∧ Ended .openSelfCalibration 0 2 t ∧ SameConfig s t ∧
        SameCached s t ∧
        Exchanged s t (Config.params.cmdLen .openSelfCalibration) 6 k (templateBytes .openSelfCalibration 0)) ∧
    (Prompt s (Config.params.cmdLen .closeSelfCalibration) 6 →
      ∃ t, exec .closeSelfCalibration s = .next t ∧ Ended .closeSelfCalibration 1 0 t ∧ SameConfig s t ∧
        SameCached s t ∧
        Exchanged s t (Config.params.cmdLen .closeSelfCalibration) 6 6 (templateBytes .closeSelfCalibration 0)) ∧
    (∀ k, TooLate s (Config.params.cmdLen .closeSelfCalibration) 6 k →
      ∃ t, exec .closeSelfCalibration s = .next t ∧ Ended .closeSelfCalibration 0 2 t ∧ SameConfig s t ∧
        SameCached s t ∧
        Exchanged s t (Config.params.cmdLen .closeSelfCalibration) 6 k (templateBytes .closeSelfCalibration 0))

/-- `GETSELFCALIBRATIONSTATUS` (R165). -/
def Obligations.GetSelfCalibrationStatusReturnsByteThree : Prop :=
  ∀ s : State,
    (Prompt s (Config.params.cmdLen .getSelfCalibrationStatus) 6 →
      ∃ t, exec .getSelfCalibrationStatus s = .next t ∧
        Ended .getSelfCalibrationStatus ((t.memRead .respbuf 3).setWidth 32) 0 t ∧ SameConfig s t ∧ SameCached s t ∧
        Exchanged s t (Config.params.cmdLen .getSelfCalibrationStatus) 6 6
          (templateBytes .getSelfCalibrationStatus 0)) ∧
    (∀ k, TooLate s (Config.params.cmdLen .getSelfCalibrationStatus) 6 k →
      ∃ t, exec .getSelfCalibrationStatus s = .next t ∧ Ended .getSelfCalibrationStatus 0x02 2 t ∧ SameConfig s t ∧
        SameCached s t ∧
        Exchanged s t (Config.params.cmdLen .getSelfCalibrationStatus) 6 k
          (templateBytes .getSelfCalibrationStatus 0))

/-- `SETSELFCALIBRATIONHOURS h` (R166; R74 item 2). -/
def Obligations.SetSelfCalibrationHoursValidatesPacksAndChecksByteThree : Prop :=
  ∀ (h : Half) (s : State),
    (h.toNat < 24 ∨ 720 < h.toNat →
      ∃ t, exec (.setSelfCalibrationHours h) s = .next t ∧ Ended (.setSelfCalibrationHours h) 0 1 t ∧
        SameOutsideHostInterface s t) ∧
    (24 ≤ h.toNat → h.toNat ≤ 720 → Prompt s (Config.params.cmdLen .setSelfCalibrationHours) 6 →
      ∃ t, exec (.setSelfCalibrationHours h) s = .next t ∧ SameConfig s t ∧ SameCached s t ∧
        (Exchanged s t (Config.params.cmdLen .setSelfCalibrationHours) 6 6 fun a =>
          if a = Config.params.hrsOff then h.extractLsb' 0 8
          else if a = Config.params.hrsOff + 1 then h.extractLsb' 8 8
          else templateBytes .setSelfCalibrationHours (h.setWidth 32) a) ∧
        if (s.arrivals s.moves.length)[3]? = some 0 then Ended (.setSelfCalibrationHours h) 1 0 t
        else Ended (.setSelfCalibrationHours h) 0 3 t) ∧
    (24 ≤ h.toNat → h.toNat ≤ 720 → ∀ k, TooLate s (Config.params.cmdLen .setSelfCalibrationHours) 6 k →
      ∃ t, exec (.setSelfCalibrationHours h) s = .next t ∧ Ended (.setSelfCalibrationHours h) 0 2 t ∧
        SameConfig s t ∧ SameCached s t ∧
        Exchanged s t (Config.params.cmdLen .setSelfCalibrationHours) 6 k fun a =>
          if a = Config.params.hrsOff then h.extractLsb' 0 8
          else if a = Config.params.hrsOff + 1 then h.extractLsb' 8 8
          else templateBytes .setSelfCalibrationHours (h.setWidth 32) a)

/-- `GETSELFCALIBRATIONHOURS` (R167). -/
def Obligations.GetSelfCalibrationHoursDecodesTwoBytes : Prop :=
  ∀ s : State,
    (Prompt s (Config.params.cmdLen .getSelfCalibrationHours) 9 →
      ∃ t, exec .getSelfCalibrationHours s = .next t ∧
        Ended .getSelfCalibrationHours ((t.memRead .respbuf 4 ++ t.memRead .respbuf 3).setWidth 32) 0 t ∧
        SameConfig s t ∧ SameCached s t ∧
        Exchanged s t (Config.params.cmdLen .getSelfCalibrationHours) 9 9 (templateBytes .getSelfCalibrationHours 0)) ∧
    (∀ k, TooLate s (Config.params.cmdLen .getSelfCalibrationHours) 9 k →
      ∃ t, exec .getSelfCalibrationHours s = .next t ∧ Ended .getSelfCalibrationHours 0xFFFF 2 t ∧ SameConfig s t ∧
        SameCached s t ∧
        Exchanged s t (Config.params.cmdLen .getSelfCalibrationHours) 9 k (templateBytes .getSelfCalibrationHours 0))

/-! ### Values and whole-machine rules -/

/-- The integer comparison of the air-pressure check is the comparison of real values: finite, at least 700 and at most
1100, in units of 2^-149 (R156). -/
def Obligations.AirPressureCheckIsTheRealComparison : Prop :=
  ∀ v : Word32,
    (airPressureOk v = true ↔ 0x442F0000 ≤ v ∧ v ≤ 0x44898000) ∧
    (airPressureOk v = true ↔
      f32Finite v ∧ 700 * 2 ^ 149 ≤ f32Units v ∧ f32Units v ≤ 1100 * 2 ^ 149)

/-- A decoded air pressure is finite, not negative, below 2^-125, and never the sentinel (R155). -/
def Obligations.DecodedAirPressureIsNeverTheSentinel : Prop :=
  ∀ b0 b1 b2 : Byte,
    (f32le3 b0 b1 b2).extractLsb' 24 8 = 0 ∧ f32Finite (f32le3 b0 b1 b2) ∧ 0 ≤ f32Units (f32le3 b0 b1 b2) ∧ f32Units (f32le3 b0 b1 b2) < 2 ^ 24 ∧
      f32le3 b0 b1 b2 ≠ airPressureSentinel ∧ airPressureOk (f32le3 b0 b1 b2) = false ∧
      (f32le3 b0 b1 b2).extractLsb' 0 24 = b2 ++ b1 ++ b0

/-- Two reading commands that transmit are at least 4000 ms apart by the Clock, whatever came of the first: if the
first one, of either kind, transmitted from `s`, and `LASTREAD` is still what it left when the second one transmits from
`u`, then the second one's rate check sampled at least 4000 ms after the first one's (R145, R146). -/
def Obligations.LiveReadsAreFourSecondsApart : Prop :=
  ∀ (i j : Instr) (s t u v : State), (i = .getGasConcentration ∨ i = .getAirPressureReference) →
    (j = .getGasConcentration ∨ j = .getAirPressureReference) →
    exec i s = .next t → t.txlog ≠ s.txlog → u.lastread = t.lastread → exec j u = .next v → v.txlog ≠ u.txlog →
      4000 ≤ u.sample.clock - s.sample.clock

/-- A gas reading inside the window of a completed live one transmits nothing: it returns the same value if that one
succeeded, and the older `GAS` if that one failed, which returned 0 (R145 to R148). The live reading may have been completed
in its first step or in a later one, that goes on with its receive loop: R148 knows no steps, and that a command is cut in
its receive loop is the model's choice (log 1, DESIGN CHOICE). -/
def Obligations.GasReadInsideTheWindowRepeatsTheValue : Prop :=
  ∀ s t u : State, (exec .getGasConcentration s = .next t ∧ t.txlog ≠ s.txlog ∨
      Resumes .getGasConcentration s ∧ step s = .next t) → t.busy = false →
    u.gas = t.gas → u.lastread = t.lastread → u.sample.clock - u.lastread < 4000 →
      ∃ v, exec .getGasConcentration u = .next v ∧ v.txlog = u.txlog ∧
        (t.status = 0 → t.result = t.gas.setWidth 32 ∧ Ended .getGasConcentration t.result 0 v) ∧
        (t.status ≠ 0 → t.result = 0 ∧ Ended .getGasConcentration (s.gas.setWidth 32) 0 v)

/-- The error-suppression flag has no effect on any other command: with the other value of the flag, each does the same
and keeps that value (R14, R190). -/
def Obligations.SuppressFlagHasNoEffectOnOtherCommands : Prop :=
  ∀ (i : Instr) (f : Bool) (s t : State), (∀ g, i ≠ .suppressError g) → i ≠ .getSuppressError →
    exec i s = .next t → exec i { s with suppress := f } = .next { t with suppress := f }

/-- Which commands may write which registers and buffers, in their first step (R31), and what a later step of a command
with an exchange may still write. The second half does not follow from R31, which speaks of whole commands: the address
byte, the CRC and the transmission come before the receive loop (R112), what the loop itself writes is in R119 to R123,
and no exchange writes a configuration or cached-reading register (R131). That a command is cut in its receive loop, so
that it has a later step at all, is the model's choice (log 1, DESIGN CHOICE). -/
def Obligations.OnlyTheListedCommandsWriteEachRegister : Prop :=
  (∀ (i : Instr) (s t : State), exec i s = .next t →
    (t.addr ≠ s.addr → (∃ a, i = .beginAddr a) ∨ ∃ a, i = .setAddress a) ∧
    (t.specific ≠ s.specific → i = .setGenericAddress ∨ i = .setSpecificAddress) ∧
    (t.timeout ≠ s.timeout → ∃ ms, i = .setTimeout ms) ∧
    (t.suppress ≠ s.suppress → ∃ f, i = .suppressError f) ∧
    (t.lastread ≠ s.lastread → i = .getGasConcentration ∨ i = .getAirPressureReference) ∧
    (t.gas ≠ s.gas → i = .getGasConcentration) ∧
    (t.airp ≠ s.airp → i = .getAirPressureReference) ∧
    (¬ SameCrc s t → (∃ n, i = .crc16 n) ∨ (finishOf i).isSome = true) ∧
    (¬ SameBytes .txbuf s t → (∃ k b, i = .wrbuf k b) ∨ (finishOf i).isSome = true) ∧
    (¬ SameBytes .respbuf s t → (finishOf i).isSome = true) ∧
    (¬ SameSequencer s t → (finishOf i).isSome = true)) ∧
  ∀ (i : Instr) (s t : State), Resumes i s → step s = .next t →
    (t.addr ≠ s.addr → ∃ a, i = .setAddress a) ∧ (t.gas ≠ s.gas → i = .getGasConcentration) ∧
    (t.airp ≠ s.airp → i = .getAirPressureReference) ∧ t.specific = s.specific ∧ t.timeout = s.timeout ∧
    t.suppress = s.suppress ∧ t.lastread = s.lastread ∧ SameCrc s t ∧ SameBytes .txbuf s t ∧ t.txlen = s.txlen ∧
    t.rxlen = s.rxlen ∧ t.txi = s.txi ∧ t.tstart = s.tstart

/-! ### Commands with an exchange, in every environment -/

/-- Every command with an exchange, in every environment: where its checks pass and, for a reading command, the rate
window is over, it transmits its frame and then ends by its own decode rule with the whole response, or by its sentinel
and `STATUS` 2 with bytes missing and the time run out, or is still in its receive loop (R140, R143, R150 to R167, R198);
of the configuration and cached registers it writes those alone that its rule names. That a step may end in the receive loop is the model's choice (log 1). -/
def Obligations.EveryExchangeEndsByItsCommandsRule : Prop :=
  ∀ (i : Instr) (s : State), Exchanges s i →
    ∃ t, exec i s = .next t ∧ ExchangeEnd i s t ∧
      FrameSent s t (exchangeLengths i).1 (fun a => framePayload s a i) ∧ t.rxlen.toNat = (exchangeLengths i).2 ∧
      Received s t 0 ∧ SameHost s t ∧ t.specific = s.specific ∧ t.timeout = s.timeout ∧ t.suppress = s.suppress ∧
      t.lastread = (if i = .getGasConcentration ∨ i = .getAirPressureReference then s.sample.clock else s.lastread)

/-- A command whose receive loop still ran at the end of a step goes on with it in the next one, in every environment, and
ends as its own rule says or waits on: it transmits nothing more, collects bytes from `RXN` on in the order of arrival, and
writes nothing but what the rest of the loop and its decode write (R119 to R124, R143, R150 to R167, R198). That a step
stopped in the loop is the model's choice (log 1). -/
def Obligations.EveryResumedExchangeEndsByItsCommandsRule : Prop :=
  ∀ (i : Instr) (s : State), Resumes i s →
    ∃ t, step s = .next t ∧ ExchangeEnd i s t ∧ Received s t s.rxn.toNat ∧ t.txlog = s.txlog ∧ SameBytes .txbuf s t ∧
      SameCrc s t ∧ t.txlen = s.txlen ∧ t.rxlen = s.rxlen ∧ t.txi = s.txi ∧ t.tstart = s.tstart ∧
      t.specific = s.specific ∧ t.timeout = s.timeout ∧ t.suppress = s.suppress ∧ t.lastread = s.lastread ∧ SameHost s t

/-- `TXI` after a transmission is the number of bytes transmitted. The spec does not say what `TXI` holds then (R24,
R116): it is the model's choice (log 9, DEDUCED, unsafe). -/
def Obligations.TransmitIndexIsLeftAtTheCommandLength : Prop :=
  ∀ (i : Instr) (s t : State), exec i s = .next t → t.txlog ≠ s.txlog →
    s.txlog.length + t.txi.toNat = t.txlog.length ∧ t.txi = t.txlen

/-- The Clock is live (R49): from every state, however the transmit log grows meanwhile, the environment's moves, one a
yield point, advance the Clock without bound. (How the free moves are made live is the model's construction: log 20, DESIGN
CHOICE.) -/
def Obligations.ClockIsLive : Prop :=
  ∀ (s : State) (log : Nat → List Byte) (ms : Nat),
    ∃ k, ms ≤ ((List.range k).map fun j => (s.moveAt j (log j)).advance.toNat).sum

/-- Termination (R130, R250): from every state and in every environment the receive loop ends, unless the elapsed time is
missed: some deadline check finds it past the wrap, at 2^32 ms or more, although every check before it found it at most
`TIMEOUT`. (At the largest `TIMEOUT` a loop that lacks bytes can only go the second way, R250.) -/
def Obligations.ReceiveLoopEndsUnlessTheDeadlineIsMissed : Prop :=
  ∀ s : State,
    ∃ k, (∀ n, k < n → (State.receiveLoop n s).1 ≠ .waiting) ∨
      (2 ^ 32 ≤ (s.clock - s.tstart).toNat + s.untilCheck k ∧
        ∀ j, j < k → (s.clock - s.tstart).toNat + s.untilCheck j ≤ s.timeout.toNat)
end

