-- ==== Sys2Proof/Laws/State.lean ====
section
/-! SUPPORT. What each update of the state does to each field, one lemma a field, and to each byte of the buffers. -/

namespace Sys2Proof.Machine

@[simp] theorem State.environmentMove_addr (s : State) : s.environmentMove.addr = s.addr := rfl
@[simp] theorem State.environmentMove_specific (s : State) : s.environmentMove.specific = s.specific := rfl
@[simp] theorem State.environmentMove_timeout (s : State) : s.environmentMove.timeout = s.timeout := rfl
@[simp] theorem State.environmentMove_suppress (s : State) : s.environmentMove.suppress = s.suppress := rfl
@[simp] theorem State.environmentMove_lastread (s : State) : s.environmentMove.lastread = s.lastread := rfl
@[simp] theorem State.environmentMove_gas (s : State) : s.environmentMove.gas = s.gas := rfl
@[simp] theorem State.environmentMove_airp (s : State) : s.environmentMove.airp = s.airp := rfl
@[simp] theorem State.environmentMove_crchi (s : State) : s.environmentMove.crchi = s.crchi := rfl
@[simp] theorem State.environmentMove_crclo (s : State) : s.environmentMove.crclo = s.crclo := rfl
@[simp] theorem State.environmentMove_idx (s : State) : s.environmentMove.idx = s.idx := rfl
@[simp] theorem State.environmentMove_txbuf (s : State) : s.environmentMove.txbuf = s.txbuf := rfl
@[simp] theorem State.environmentMove_respbuf (s : State) : s.environmentMove.respbuf = s.respbuf := rfl
@[simp] theorem State.environmentMove_txlen (s : State) : s.environmentMove.txlen = s.txlen := rfl
@[simp] theorem State.environmentMove_rxlen (s : State) : s.environmentMove.rxlen = s.rxlen := rfl
@[simp] theorem State.environmentMove_txi (s : State) : s.environmentMove.txi = s.txi := rfl
@[simp] theorem State.environmentMove_rxn (s : State) : s.environmentMove.rxn = s.rxn := rfl
@[simp] theorem State.environmentMove_phase (s : State) : s.environmentMove.phase = s.phase := rfl
@[simp] theorem State.environmentMove_tstart (s : State) : s.environmentMove.tstart = s.tstart := rfl
@[simp] theorem State.environmentMove_cmd (s : State) : s.environmentMove.cmd = s.cmd := rfl
@[simp] theorem State.environmentMove_result (s : State) : s.environmentMove.result = s.result := rfl
@[simp] theorem State.environmentMove_status (s : State) : s.environmentMove.status = s.status := rfl
@[simp] theorem State.environmentMove_busy (s : State) : s.environmentMove.busy = s.busy := rfl
@[simp] theorem State.environmentMove_clock (s : State) : s.environmentMove.clock = s.clock + s.nextMove.advance := rfl
@[simp] theorem State.environmentMove_rxq (s : State) : s.environmentMove.rxq = s.rxq ++ s.nextMove.bytes := rfl
@[simp] theorem State.environmentMove_txlog (s : State) : s.environmentMove.txlog = s.txlog := rfl
@[simp] theorem State.environmentMove_moves (s : State) : s.environmentMove.moves = s.moves.tail := rfl
@[simp] theorem State.environmentMove_drifts (s : State) : s.environmentMove.drifts = s.drifts := rfl
@[simp] theorem State.environmentMove_moveCount (s : State) : s.environmentMove.moveCount = s.moveCount + 1 := rfl
@[simp] theorem State.environmentMove_driftCount (s : State) : s.environmentMove.driftCount = s.driftCount := rfl
@[simp] theorem State.environmentMove_inputs (s : State) : s.environmentMove.inputs = s.inputs := rfl
@[simp] theorem State.environmentMove_epoch (s : State) : s.environmentMove.epoch = s.epoch := rfl
@[simp] theorem State.environmentMove_memRead (s : State) (sp : Space) (a : Nat) : s.environmentMove.memRead sp a = s.memRead sp a := by
  cases sp <;> rfl

@[simp] theorem State.sample_addr (s : State) : s.sample.addr = s.addr := rfl
@[simp] theorem State.sample_specific (s : State) : s.sample.specific = s.specific := rfl
@[simp] theorem State.sample_timeout (s : State) : s.sample.timeout = s.timeout := rfl
@[simp] theorem State.sample_suppress (s : State) : s.sample.suppress = s.suppress := rfl
@[simp] theorem State.sample_lastread (s : State) : s.sample.lastread = s.lastread := rfl
@[simp] theorem State.sample_gas (s : State) : s.sample.gas = s.gas := rfl
@[simp] theorem State.sample_airp (s : State) : s.sample.airp = s.airp := rfl
@[simp] theorem State.sample_crchi (s : State) : s.sample.crchi = s.crchi := rfl
@[simp] theorem State.sample_crclo (s : State) : s.sample.crclo = s.crclo := rfl
@[simp] theorem State.sample_idx (s : State) : s.sample.idx = s.idx := rfl
@[simp] theorem State.sample_txbuf (s : State) : s.sample.txbuf = s.txbuf := rfl
@[simp] theorem State.sample_respbuf (s : State) : s.sample.respbuf = s.respbuf := rfl
@[simp] theorem State.sample_txlen (s : State) : s.sample.txlen = s.txlen := rfl
@[simp] theorem State.sample_rxlen (s : State) : s.sample.rxlen = s.rxlen := rfl
@[simp] theorem State.sample_txi (s : State) : s.sample.txi = s.txi := rfl
@[simp] theorem State.sample_rxn (s : State) : s.sample.rxn = s.rxn := rfl
@[simp] theorem State.sample_phase (s : State) : s.sample.phase = s.phase := rfl
@[simp] theorem State.sample_tstart (s : State) : s.sample.tstart = s.tstart := rfl
@[simp] theorem State.sample_cmd (s : State) : s.sample.cmd = s.cmd := rfl
@[simp] theorem State.sample_result (s : State) : s.sample.result = s.result := rfl
@[simp] theorem State.sample_status (s : State) : s.sample.status = s.status := rfl
@[simp] theorem State.sample_busy (s : State) : s.sample.busy = s.busy := rfl
@[simp] theorem State.sample_clock (s : State) : s.sample.clock = s.clock + s.nextDrift := rfl
@[simp] theorem State.sample_rxq (s : State) : s.sample.rxq = s.rxq := rfl
@[simp] theorem State.sample_txlog (s : State) : s.sample.txlog = s.txlog := rfl
@[simp] theorem State.sample_moves (s : State) : s.sample.moves = s.moves := rfl
@[simp] theorem State.sample_drifts (s : State) : s.sample.drifts = s.drifts.tail := rfl
@[simp] theorem State.sample_moveCount (s : State) : s.sample.moveCount = s.moveCount := rfl
@[simp] theorem State.sample_driftCount (s : State) : s.sample.driftCount = s.driftCount + 1 := rfl
@[simp] theorem State.sample_inputs (s : State) : s.sample.inputs = s.inputs := rfl
@[simp] theorem State.sample_epoch (s : State) : s.sample.epoch = s.epoch := rfl
@[simp] theorem State.sample_memRead (s : State) (sp : Space) (a : Nat) : s.sample.memRead sp a = s.memRead sp a := by
  cases sp <;> rfl

@[simp] theorem State.streamWrite_addr (s : State) (b : Byte) : (s.streamWrite b).addr = s.addr := rfl
@[simp] theorem State.streamWrite_specific (s : State) (b : Byte) : (s.streamWrite b).specific = s.specific := rfl
@[simp] theorem State.streamWrite_timeout (s : State) (b : Byte) : (s.streamWrite b).timeout = s.timeout := rfl
@[simp] theorem State.streamWrite_suppress (s : State) (b : Byte) : (s.streamWrite b).suppress = s.suppress := rfl
@[simp] theorem State.streamWrite_lastread (s : State) (b : Byte) : (s.streamWrite b).lastread = s.lastread := rfl
@[simp] theorem State.streamWrite_gas (s : State) (b : Byte) : (s.streamWrite b).gas = s.gas := rfl
@[simp] theorem State.streamWrite_airp (s : State) (b : Byte) : (s.streamWrite b).airp = s.airp := rfl
@[simp] theorem State.streamWrite_crchi (s : State) (b : Byte) : (s.streamWrite b).crchi = s.crchi := rfl
@[simp] theorem State.streamWrite_crclo (s : State) (b : Byte) : (s.streamWrite b).crclo = s.crclo := rfl
@[simp] theorem State.streamWrite_idx (s : State) (b : Byte) : (s.streamWrite b).idx = s.idx := rfl
@[simp] theorem State.streamWrite_txbuf (s : State) (b : Byte) : (s.streamWrite b).txbuf = s.txbuf := rfl
@[simp] theorem State.streamWrite_respbuf (s : State) (b : Byte) : (s.streamWrite b).respbuf = s.respbuf := rfl
@[simp] theorem State.streamWrite_txlen (s : State) (b : Byte) : (s.streamWrite b).txlen = s.txlen := rfl
@[simp] theorem State.streamWrite_rxlen (s : State) (b : Byte) : (s.streamWrite b).rxlen = s.rxlen := rfl
@[simp] theorem State.streamWrite_txi (s : State) (b : Byte) : (s.streamWrite b).txi = s.txi := rfl
@[simp] theorem State.streamWrite_rxn (s : State) (b : Byte) : (s.streamWrite b).rxn = s.rxn := rfl
@[simp] theorem State.streamWrite_phase (s : State) (b : Byte) : (s.streamWrite b).phase = s.phase := rfl
@[simp] theorem State.streamWrite_tstart (s : State) (b : Byte) : (s.streamWrite b).tstart = s.tstart := rfl
@[simp] theorem State.streamWrite_cmd (s : State) (b : Byte) : (s.streamWrite b).cmd = s.cmd := rfl
@[simp] theorem State.streamWrite_result (s : State) (b : Byte) : (s.streamWrite b).result = s.result := rfl
@[simp] theorem State.streamWrite_status (s : State) (b : Byte) : (s.streamWrite b).status = s.status := rfl
@[simp] theorem State.streamWrite_busy (s : State) (b : Byte) : (s.streamWrite b).busy = s.busy := rfl
@[simp] theorem State.streamWrite_clock (s : State) (b : Byte) : (s.streamWrite b).clock = s.clock := rfl
@[simp] theorem State.streamWrite_rxq (s : State) (b : Byte) : (s.streamWrite b).rxq = s.rxq := rfl
@[simp] theorem State.streamWrite_txlog (s : State) (b : Byte) : (s.streamWrite b).txlog = s.txlog ++ [b] := rfl
@[simp] theorem State.streamWrite_moves (s : State) (b : Byte) : (s.streamWrite b).moves = s.moves := rfl
@[simp] theorem State.streamWrite_drifts (s : State) (b : Byte) : (s.streamWrite b).drifts = s.drifts := rfl
@[simp] theorem State.streamWrite_moveCount (s : State) (b : Byte) : (s.streamWrite b).moveCount = s.moveCount := rfl
@[simp] theorem State.streamWrite_driftCount (s : State) (b : Byte) : (s.streamWrite b).driftCount = s.driftCount := rfl
@[simp] theorem State.streamWrite_inputs (s : State) (b : Byte) : (s.streamWrite b).inputs = s.inputs := rfl
@[simp] theorem State.streamWrite_epoch (s : State) (b : Byte) : (s.streamWrite b).epoch = s.epoch := rfl
@[simp] theorem State.streamWrite_memRead (s : State) (b : Byte) (sp : Space) (a : Nat) : (s.streamWrite b).memRead sp a = s.memRead sp a := by
  cases sp <;> rfl

@[simp] theorem State.crcUnitInit_addr (s : State) : s.crcUnitInit.addr = s.addr := rfl
@[simp] theorem State.crcUnitInit_specific (s : State) : s.crcUnitInit.specific = s.specific := rfl
@[simp] theorem State.crcUnitInit_timeout (s : State) : s.crcUnitInit.timeout = s.timeout := rfl
@[simp] theorem State.crcUnitInit_suppress (s : State) : s.crcUnitInit.suppress = s.suppress := rfl
@[simp] theorem State.crcUnitInit_lastread (s : State) : s.crcUnitInit.lastread = s.lastread := rfl
@[simp] theorem State.crcUnitInit_gas (s : State) : s.crcUnitInit.gas = s.gas := rfl
@[simp] theorem State.crcUnitInit_airp (s : State) : s.crcUnitInit.airp = s.airp := rfl
@[simp] theorem State.crcUnitInit_crchi (s : State) : s.crcUnitInit.crchi = 0xFF := rfl
@[simp] theorem State.crcUnitInit_crclo (s : State) : s.crcUnitInit.crclo = 0xFF := rfl
@[simp] theorem State.crcUnitInit_idx (s : State) : s.crcUnitInit.idx = s.idx := rfl
@[simp] theorem State.crcUnitInit_txbuf (s : State) : s.crcUnitInit.txbuf = s.txbuf := rfl
@[simp] theorem State.crcUnitInit_respbuf (s : State) : s.crcUnitInit.respbuf = s.respbuf := rfl
@[simp] theorem State.crcUnitInit_txlen (s : State) : s.crcUnitInit.txlen = s.txlen := rfl
@[simp] theorem State.crcUnitInit_rxlen (s : State) : s.crcUnitInit.rxlen = s.rxlen := rfl
@[simp] theorem State.crcUnitInit_txi (s : State) : s.crcUnitInit.txi = s.txi := rfl
@[simp] theorem State.crcUnitInit_rxn (s : State) : s.crcUnitInit.rxn = s.rxn := rfl
@[simp] theorem State.crcUnitInit_phase (s : State) : s.crcUnitInit.phase = s.phase := rfl
@[simp] theorem State.crcUnitInit_tstart (s : State) : s.crcUnitInit.tstart = s.tstart := rfl
@[simp] theorem State.crcUnitInit_cmd (s : State) : s.crcUnitInit.cmd = s.cmd := rfl
@[simp] theorem State.crcUnitInit_result (s : State) : s.crcUnitInit.result = s.result := rfl
@[simp] theorem State.crcUnitInit_status (s : State) : s.crcUnitInit.status = s.status := rfl
@[simp] theorem State.crcUnitInit_busy (s : State) : s.crcUnitInit.busy = s.busy := rfl
@[simp] theorem State.crcUnitInit_clock (s : State) : s.crcUnitInit.clock = s.clock := rfl
@[simp] theorem State.crcUnitInit_rxq (s : State) : s.crcUnitInit.rxq = s.rxq := rfl
@[simp] theorem State.crcUnitInit_txlog (s : State) : s.crcUnitInit.txlog = s.txlog := rfl
@[simp] theorem State.crcUnitInit_moves (s : State) : s.crcUnitInit.moves = s.moves := rfl
@[simp] theorem State.crcUnitInit_drifts (s : State) : s.crcUnitInit.drifts = s.drifts := rfl
@[simp] theorem State.crcUnitInit_moveCount (s : State) : s.crcUnitInit.moveCount = s.moveCount := rfl
@[simp] theorem State.crcUnitInit_driftCount (s : State) : s.crcUnitInit.driftCount = s.driftCount := rfl
@[simp] theorem State.crcUnitInit_inputs (s : State) : s.crcUnitInit.inputs = s.inputs := rfl
@[simp] theorem State.crcUnitInit_epoch (s : State) : s.crcUnitInit.epoch = s.epoch := rfl
@[simp] theorem State.crcUnitInit_memRead (s : State) (sp : Space) (a : Nat) : s.crcUnitInit.memRead sp a = s.memRead sp a := by
  cases sp <;> rfl

@[simp] theorem State.crcUnitStep_addr (s : State) (b : Byte) : (s.crcUnitStep b).addr = s.addr := rfl
@[simp] theorem State.crcUnitStep_specific (s : State) (b : Byte) : (s.crcUnitStep b).specific = s.specific := rfl
@[simp] theorem State.crcUnitStep_timeout (s : State) (b : Byte) : (s.crcUnitStep b).timeout = s.timeout := rfl
@[simp] theorem State.crcUnitStep_suppress (s : State) (b : Byte) : (s.crcUnitStep b).suppress = s.suppress := rfl
@[simp] theorem State.crcUnitStep_lastread (s : State) (b : Byte) : (s.crcUnitStep b).lastread = s.lastread := rfl
@[simp] theorem State.crcUnitStep_gas (s : State) (b : Byte) : (s.crcUnitStep b).gas = s.gas := rfl
@[simp] theorem State.crcUnitStep_airp (s : State) (b : Byte) : (s.crcUnitStep b).airp = s.airp := rfl
@[simp] theorem State.crcUnitStep_crchi (s : State) (b : Byte) : (s.crcUnitStep b).crchi = (crcStep { hi := s.crchi, lo := s.crclo } b).hi := rfl
@[simp] theorem State.crcUnitStep_crclo (s : State) (b : Byte) : (s.crcUnitStep b).crclo = (crcStep { hi := s.crchi, lo := s.crclo } b).lo := rfl
@[simp] theorem State.crcUnitStep_idx (s : State) (b : Byte) : (s.crcUnitStep b).idx = crcIndex { hi := s.crchi, lo := s.crclo } b := rfl
@[simp] theorem State.crcUnitStep_txbuf (s : State) (b : Byte) : (s.crcUnitStep b).txbuf = s.txbuf := rfl
@[simp] theorem State.crcUnitStep_respbuf (s : State) (b : Byte) : (s.crcUnitStep b).respbuf = s.respbuf := rfl
@[simp] theorem State.crcUnitStep_txlen (s : State) (b : Byte) : (s.crcUnitStep b).txlen = s.txlen := rfl
@[simp] theorem State.crcUnitStep_rxlen (s : State) (b : Byte) : (s.crcUnitStep b).rxlen = s.rxlen := rfl
@[simp] theorem State.crcUnitStep_txi (s : State) (b : Byte) : (s.crcUnitStep b).txi = s.txi := rfl
@[simp] theorem State.crcUnitStep_rxn (s : State) (b : Byte) : (s.crcUnitStep b).rxn = s.rxn := rfl
@[simp] theorem State.crcUnitStep_phase (s : State) (b : Byte) : (s.crcUnitStep b).phase = s.phase := rfl
@[simp] theorem State.crcUnitStep_tstart (s : State) (b : Byte) : (s.crcUnitStep b).tstart = s.tstart := rfl
@[simp] theorem State.crcUnitStep_cmd (s : State) (b : Byte) : (s.crcUnitStep b).cmd = s.cmd := rfl
@[simp] theorem State.crcUnitStep_result (s : State) (b : Byte) : (s.crcUnitStep b).result = s.result := rfl
@[simp] theorem State.crcUnitStep_status (s : State) (b : Byte) : (s.crcUnitStep b).status = s.status := rfl
@[simp] theorem State.crcUnitStep_busy (s : State) (b : Byte) : (s.crcUnitStep b).busy = s.busy := rfl
@[simp] theorem State.crcUnitStep_clock (s : State) (b : Byte) : (s.crcUnitStep b).clock = s.clock := rfl
@[simp] theorem State.crcUnitStep_rxq (s : State) (b : Byte) : (s.crcUnitStep b).rxq = s.rxq := rfl
@[simp] theorem State.crcUnitStep_txlog (s : State) (b : Byte) : (s.crcUnitStep b).txlog = s.txlog := rfl
@[simp] theorem State.crcUnitStep_moves (s : State) (b : Byte) : (s.crcUnitStep b).moves = s.moves := rfl
@[simp] theorem State.crcUnitStep_drifts (s : State) (b : Byte) : (s.crcUnitStep b).drifts = s.drifts := rfl
@[simp] theorem State.crcUnitStep_moveCount (s : State) (b : Byte) : (s.crcUnitStep b).moveCount = s.moveCount := rfl
@[simp] theorem State.crcUnitStep_driftCount (s : State) (b : Byte) : (s.crcUnitStep b).driftCount = s.driftCount := rfl
@[simp] theorem State.crcUnitStep_inputs (s : State) (b : Byte) : (s.crcUnitStep b).inputs = s.inputs := rfl
@[simp] theorem State.crcUnitStep_epoch (s : State) (b : Byte) : (s.crcUnitStep b).epoch = s.epoch := rfl
@[simp] theorem State.crcUnitStep_memRead (s : State) (b : Byte) (sp : Space) (a : Nat) : (s.crcUnitStep b).memRead sp a = s.memRead sp a := by
  cases sp <;> rfl

@[simp] theorem State.setPhase_addr (s : State) (ph : Phase) : (s.setPhase ph).addr = s.addr := rfl
@[simp] theorem State.setPhase_specific (s : State) (ph : Phase) : (s.setPhase ph).specific = s.specific := rfl
@[simp] theorem State.setPhase_timeout (s : State) (ph : Phase) : (s.setPhase ph).timeout = s.timeout := rfl
@[simp] theorem State.setPhase_suppress (s : State) (ph : Phase) : (s.setPhase ph).suppress = s.suppress := rfl
@[simp] theorem State.setPhase_lastread (s : State) (ph : Phase) : (s.setPhase ph).lastread = s.lastread := rfl
@[simp] theorem State.setPhase_gas (s : State) (ph : Phase) : (s.setPhase ph).gas = s.gas := rfl
@[simp] theorem State.setPhase_airp (s : State) (ph : Phase) : (s.setPhase ph).airp = s.airp := rfl
@[simp] theorem State.setPhase_crchi (s : State) (ph : Phase) : (s.setPhase ph).crchi = s.crchi := rfl
@[simp] theorem State.setPhase_crclo (s : State) (ph : Phase) : (s.setPhase ph).crclo = s.crclo := rfl
@[simp] theorem State.setPhase_idx (s : State) (ph : Phase) : (s.setPhase ph).idx = s.idx := rfl
@[simp] theorem State.setPhase_txbuf (s : State) (ph : Phase) : (s.setPhase ph).txbuf = s.txbuf := rfl
@[simp] theorem State.setPhase_respbuf (s : State) (ph : Phase) : (s.setPhase ph).respbuf = s.respbuf := rfl
@[simp] theorem State.setPhase_txlen (s : State) (ph : Phase) : (s.setPhase ph).txlen = s.txlen := rfl
@[simp] theorem State.setPhase_rxlen (s : State) (ph : Phase) : (s.setPhase ph).rxlen = s.rxlen := rfl
@[simp] theorem State.setPhase_txi (s : State) (ph : Phase) : (s.setPhase ph).txi = s.txi := rfl
@[simp] theorem State.setPhase_rxn (s : State) (ph : Phase) : (s.setPhase ph).rxn = s.rxn := rfl
@[simp] theorem State.setPhase_phase (s : State) (ph : Phase) : (s.setPhase ph).phase = ph := rfl
@[simp] theorem State.setPhase_tstart (s : State) (ph : Phase) : (s.setPhase ph).tstart = s.tstart := rfl
@[simp] theorem State.setPhase_cmd (s : State) (ph : Phase) : (s.setPhase ph).cmd = s.cmd := rfl
@[simp] theorem State.setPhase_result (s : State) (ph : Phase) : (s.setPhase ph).result = s.result := rfl
@[simp] theorem State.setPhase_status (s : State) (ph : Phase) : (s.setPhase ph).status = s.status := rfl
@[simp] theorem State.setPhase_busy (s : State) (ph : Phase) : (s.setPhase ph).busy = s.busy := rfl
@[simp] theorem State.setPhase_clock (s : State) (ph : Phase) : (s.setPhase ph).clock = s.clock := rfl
@[simp] theorem State.setPhase_rxq (s : State) (ph : Phase) : (s.setPhase ph).rxq = s.rxq := rfl
@[simp] theorem State.setPhase_txlog (s : State) (ph : Phase) : (s.setPhase ph).txlog = s.txlog := rfl
@[simp] theorem State.setPhase_moves (s : State) (ph : Phase) : (s.setPhase ph).moves = s.moves := rfl
@[simp] theorem State.setPhase_drifts (s : State) (ph : Phase) : (s.setPhase ph).drifts = s.drifts := rfl
@[simp] theorem State.setPhase_moveCount (s : State) (ph : Phase) : (s.setPhase ph).moveCount = s.moveCount := rfl
@[simp] theorem State.setPhase_driftCount (s : State) (ph : Phase) : (s.setPhase ph).driftCount = s.driftCount := rfl
@[simp] theorem State.setPhase_inputs (s : State) (ph : Phase) : (s.setPhase ph).inputs = s.inputs := rfl
@[simp] theorem State.setPhase_epoch (s : State) (ph : Phase) : (s.setPhase ph).epoch = s.epoch := rfl
@[simp] theorem State.setPhase_memRead (s : State) (ph : Phase) (sp : Space) (a : Nat) : (s.setPhase ph).memRead sp a = s.memRead sp a := by
  cases sp <;> rfl

@[simp] theorem State.issueWord_addr (s : State) (w : CommandWord) : (s.issueWord w).addr = s.addr := rfl
@[simp] theorem State.issueWord_specific (s : State) (w : CommandWord) : (s.issueWord w).specific = s.specific := rfl
@[simp] theorem State.issueWord_timeout (s : State) (w : CommandWord) : (s.issueWord w).timeout = s.timeout := rfl
@[simp] theorem State.issueWord_suppress (s : State) (w : CommandWord) : (s.issueWord w).suppress = s.suppress := rfl
@[simp] theorem State.issueWord_lastread (s : State) (w : CommandWord) : (s.issueWord w).lastread = s.lastread := rfl
@[simp] theorem State.issueWord_gas (s : State) (w : CommandWord) : (s.issueWord w).gas = s.gas := rfl
@[simp] theorem State.issueWord_airp (s : State) (w : CommandWord) : (s.issueWord w).airp = s.airp := rfl
@[simp] theorem State.issueWord_crchi (s : State) (w : CommandWord) : (s.issueWord w).crchi = s.crchi := rfl
@[simp] theorem State.issueWord_crclo (s : State) (w : CommandWord) : (s.issueWord w).crclo = s.crclo := rfl
@[simp] theorem State.issueWord_idx (s : State) (w : CommandWord) : (s.issueWord w).idx = s.idx := rfl
@[simp] theorem State.issueWord_txbuf (s : State) (w : CommandWord) : (s.issueWord w).txbuf = s.txbuf := rfl
@[simp] theorem State.issueWord_respbuf (s : State) (w : CommandWord) : (s.issueWord w).respbuf = s.respbuf := rfl
@[simp] theorem State.issueWord_txlen (s : State) (w : CommandWord) : (s.issueWord w).txlen = s.txlen := rfl
@[simp] theorem State.issueWord_rxlen (s : State) (w : CommandWord) : (s.issueWord w).rxlen = s.rxlen := rfl
@[simp] theorem State.issueWord_txi (s : State) (w : CommandWord) : (s.issueWord w).txi = s.txi := rfl
@[simp] theorem State.issueWord_rxn (s : State) (w : CommandWord) : (s.issueWord w).rxn = s.rxn := rfl
@[simp] theorem State.issueWord_phase (s : State) (w : CommandWord) : (s.issueWord w).phase = .validate := rfl
@[simp] theorem State.issueWord_tstart (s : State) (w : CommandWord) : (s.issueWord w).tstart = s.tstart := rfl
@[simp] theorem State.issueWord_cmd (s : State) (w : CommandWord) : (s.issueWord w).cmd = w := rfl
@[simp] theorem State.issueWord_result (s : State) (w : CommandWord) : (s.issueWord w).result = s.result := rfl
@[simp] theorem State.issueWord_status (s : State) (w : CommandWord) : (s.issueWord w).status = s.status := rfl
@[simp] theorem State.issueWord_busy (s : State) (w : CommandWord) : (s.issueWord w).busy = true := rfl
@[simp] theorem State.issueWord_clock (s : State) (w : CommandWord) : (s.issueWord w).clock = s.clock := rfl
@[simp] theorem State.issueWord_rxq (s : State) (w : CommandWord) : (s.issueWord w).rxq = s.rxq := rfl
@[simp] theorem State.issueWord_txlog (s : State) (w : CommandWord) : (s.issueWord w).txlog = s.txlog := rfl
@[simp] theorem State.issueWord_moves (s : State) (w : CommandWord) : (s.issueWord w).moves = s.moves := rfl
@[simp] theorem State.issueWord_drifts (s : State) (w : CommandWord) : (s.issueWord w).drifts = s.drifts := rfl
@[simp] theorem State.issueWord_moveCount (s : State) (w : CommandWord) : (s.issueWord w).moveCount = s.moveCount := rfl
@[simp] theorem State.issueWord_driftCount (s : State) (w : CommandWord) : (s.issueWord w).driftCount = s.driftCount := rfl
@[simp] theorem State.issueWord_inputs (s : State) (w : CommandWord) : (s.issueWord w).inputs = s.inputs := rfl
@[simp] theorem State.issueWord_epoch (s : State) (w : CommandWord) : (s.issueWord w).epoch = s.epoch := rfl
@[simp] theorem State.issueWord_memRead (s : State) (w : CommandWord) (sp : Space) (a : Nat) : (s.issueWord w).memRead sp a = s.memRead sp a := by
  cases sp <;> rfl

@[simp] theorem State.issue_addr (s : State) (i : Instr) : (s.issue i).addr = s.addr := rfl
@[simp] theorem State.issue_specific (s : State) (i : Instr) : (s.issue i).specific = s.specific := rfl
@[simp] theorem State.issue_timeout (s : State) (i : Instr) : (s.issue i).timeout = s.timeout := rfl
@[simp] theorem State.issue_suppress (s : State) (i : Instr) : (s.issue i).suppress = s.suppress := rfl
@[simp] theorem State.issue_lastread (s : State) (i : Instr) : (s.issue i).lastread = s.lastread := rfl
@[simp] theorem State.issue_gas (s : State) (i : Instr) : (s.issue i).gas = s.gas := rfl
@[simp] theorem State.issue_airp (s : State) (i : Instr) : (s.issue i).airp = s.airp := rfl
@[simp] theorem State.issue_crchi (s : State) (i : Instr) : (s.issue i).crchi = s.crchi := rfl
@[simp] theorem State.issue_crclo (s : State) (i : Instr) : (s.issue i).crclo = s.crclo := rfl
@[simp] theorem State.issue_idx (s : State) (i : Instr) : (s.issue i).idx = s.idx := rfl
@[simp] theorem State.issue_txbuf (s : State) (i : Instr) : (s.issue i).txbuf = s.txbuf := rfl
@[simp] theorem State.issue_respbuf (s : State) (i : Instr) : (s.issue i).respbuf = s.respbuf := rfl
@[simp] theorem State.issue_txlen (s : State) (i : Instr) : (s.issue i).txlen = s.txlen := rfl
@[simp] theorem State.issue_rxlen (s : State) (i : Instr) : (s.issue i).rxlen = s.rxlen := rfl
@[simp] theorem State.issue_txi (s : State) (i : Instr) : (s.issue i).txi = s.txi := rfl
@[simp] theorem State.issue_rxn (s : State) (i : Instr) : (s.issue i).rxn = s.rxn := rfl
@[simp] theorem State.issue_phase (s : State) (i : Instr) : (s.issue i).phase = .validate := rfl
@[simp] theorem State.issue_tstart (s : State) (i : Instr) : (s.issue i).tstart = s.tstart := rfl
@[simp] theorem State.issue_cmd (s : State) (i : Instr) : (s.issue i).cmd = encode i := rfl
@[simp] theorem State.issue_result (s : State) (i : Instr) : (s.issue i).result = s.result := rfl
@[simp] theorem State.issue_status (s : State) (i : Instr) : (s.issue i).status = s.status := rfl
@[simp] theorem State.issue_busy (s : State) (i : Instr) : (s.issue i).busy = true := rfl
@[simp] theorem State.issue_clock (s : State) (i : Instr) : (s.issue i).clock = s.clock := rfl
@[simp] theorem State.issue_rxq (s : State) (i : Instr) : (s.issue i).rxq = s.rxq := rfl
@[simp] theorem State.issue_txlog (s : State) (i : Instr) : (s.issue i).txlog = s.txlog := rfl
@[simp] theorem State.issue_moves (s : State) (i : Instr) : (s.issue i).moves = s.moves := rfl
@[simp] theorem State.issue_drifts (s : State) (i : Instr) : (s.issue i).drifts = s.drifts := rfl
@[simp] theorem State.issue_moveCount (s : State) (i : Instr) : (s.issue i).moveCount = s.moveCount := rfl
@[simp] theorem State.issue_driftCount (s : State) (i : Instr) : (s.issue i).driftCount = s.driftCount := rfl
@[simp] theorem State.issue_inputs (s : State) (i : Instr) : (s.issue i).inputs = s.inputs := rfl
@[simp] theorem State.issue_epoch (s : State) (i : Instr) : (s.issue i).epoch = s.epoch := rfl
@[simp] theorem State.issue_memRead (s : State) (i : Instr) (sp : Space) (a : Nat) : (s.issue i).memRead sp a = s.memRead sp a := by
  cases sp <;> rfl

@[simp] theorem State.complete_addr (s : State) (r : Word32) : (s.complete r).addr = s.addr := rfl
@[simp] theorem State.complete_specific (s : State) (r : Word32) : (s.complete r).specific = s.specific := rfl
@[simp] theorem State.complete_timeout (s : State) (r : Word32) : (s.complete r).timeout = s.timeout := rfl
@[simp] theorem State.complete_suppress (s : State) (r : Word32) : (s.complete r).suppress = s.suppress := rfl
@[simp] theorem State.complete_lastread (s : State) (r : Word32) : (s.complete r).lastread = s.lastread := rfl
@[simp] theorem State.complete_gas (s : State) (r : Word32) : (s.complete r).gas = s.gas := rfl
@[simp] theorem State.complete_airp (s : State) (r : Word32) : (s.complete r).airp = s.airp := rfl
@[simp] theorem State.complete_crchi (s : State) (r : Word32) : (s.complete r).crchi = s.crchi := rfl
@[simp] theorem State.complete_crclo (s : State) (r : Word32) : (s.complete r).crclo = s.crclo := rfl
@[simp] theorem State.complete_idx (s : State) (r : Word32) : (s.complete r).idx = s.idx := rfl
@[simp] theorem State.complete_txbuf (s : State) (r : Word32) : (s.complete r).txbuf = s.txbuf := rfl
@[simp] theorem State.complete_respbuf (s : State) (r : Word32) : (s.complete r).respbuf = s.respbuf := rfl
@[simp] theorem State.complete_txlen (s : State) (r : Word32) : (s.complete r).txlen = s.txlen := rfl
@[simp] theorem State.complete_rxlen (s : State) (r : Word32) : (s.complete r).rxlen = s.rxlen := rfl
@[simp] theorem State.complete_txi (s : State) (r : Word32) : (s.complete r).txi = s.txi := rfl
@[simp] theorem State.complete_rxn (s : State) (r : Word32) : (s.complete r).rxn = s.rxn := rfl
@[simp] theorem State.complete_phase (s : State) (r : Word32) : (s.complete r).phase = .idle := rfl
@[simp] theorem State.complete_tstart (s : State) (r : Word32) : (s.complete r).tstart = s.tstart := rfl
@[simp] theorem State.complete_cmd (s : State) (r : Word32) : (s.complete r).cmd = s.cmd := rfl
@[simp] theorem State.complete_result (s : State) (r : Word32) : (s.complete r).result = r := rfl
@[simp] theorem State.complete_status (s : State) (r : Word32) : (s.complete r).status = 0 := rfl
@[simp] theorem State.complete_busy (s : State) (r : Word32) : (s.complete r).busy = false := rfl
@[simp] theorem State.complete_clock (s : State) (r : Word32) : (s.complete r).clock = s.clock := rfl
@[simp] theorem State.complete_rxq (s : State) (r : Word32) : (s.complete r).rxq = s.rxq := rfl
@[simp] theorem State.complete_txlog (s : State) (r : Word32) : (s.complete r).txlog = s.txlog := rfl
@[simp] theorem State.complete_moves (s : State) (r : Word32) : (s.complete r).moves = s.moves := rfl
@[simp] theorem State.complete_drifts (s : State) (r : Word32) : (s.complete r).drifts = s.drifts := rfl
@[simp] theorem State.complete_moveCount (s : State) (r : Word32) : (s.complete r).moveCount = s.moveCount := rfl
@[simp] theorem State.complete_driftCount (s : State) (r : Word32) : (s.complete r).driftCount = s.driftCount := rfl
@[simp] theorem State.complete_inputs (s : State) (r : Word32) : (s.complete r).inputs = s.inputs := rfl
@[simp] theorem State.complete_epoch (s : State) (r : Word32) : (s.complete r).epoch = s.epoch := rfl
@[simp] theorem State.complete_memRead (s : State) (r : Word32) (sp : Space) (a : Nat) : (s.complete r).memRead sp a = s.memRead sp a := by
  cases sp <;> rfl

@[simp] theorem State.completeKeepingStatus_addr (s : State) (r : Word32) : (s.completeKeepingStatus r).addr = s.addr := rfl
@[simp] theorem State.completeKeepingStatus_specific (s : State) (r : Word32) : (s.completeKeepingStatus r).specific = s.specific := rfl
@[simp] theorem State.completeKeepingStatus_timeout (s : State) (r : Word32) : (s.completeKeepingStatus r).timeout = s.timeout := rfl
@[simp] theorem State.completeKeepingStatus_suppress (s : State) (r : Word32) : (s.completeKeepingStatus r).suppress = s.suppress := rfl
@[simp] theorem State.completeKeepingStatus_lastread (s : State) (r : Word32) : (s.completeKeepingStatus r).lastread = s.lastread := rfl
@[simp] theorem State.completeKeepingStatus_gas (s : State) (r : Word32) : (s.completeKeepingStatus r).gas = s.gas := rfl
@[simp] theorem State.completeKeepingStatus_airp (s : State) (r : Word32) : (s.completeKeepingStatus r).airp = s.airp := rfl
@[simp] theorem State.completeKeepingStatus_crchi (s : State) (r : Word32) : (s.completeKeepingStatus r).crchi = s.crchi := rfl
@[simp] theorem State.completeKeepingStatus_crclo (s : State) (r : Word32) : (s.completeKeepingStatus r).crclo = s.crclo := rfl
@[simp] theorem State.completeKeepingStatus_idx (s : State) (r : Word32) : (s.completeKeepingStatus r).idx = s.idx := rfl
@[simp] theorem State.completeKeepingStatus_txbuf (s : State) (r : Word32) : (s.completeKeepingStatus r).txbuf = s.txbuf := rfl
@[simp] theorem State.completeKeepingStatus_respbuf (s : State) (r : Word32) : (s.completeKeepingStatus r).respbuf = s.respbuf := rfl
@[simp] theorem State.completeKeepingStatus_txlen (s : State) (r : Word32) : (s.completeKeepingStatus r).txlen = s.txlen := rfl
@[simp] theorem State.completeKeepingStatus_rxlen (s : State) (r : Word32) : (s.completeKeepingStatus r).rxlen = s.rxlen := rfl
@[simp] theorem State.completeKeepingStatus_txi (s : State) (r : Word32) : (s.completeKeepingStatus r).txi = s.txi := rfl
@[simp] theorem State.completeKeepingStatus_rxn (s : State) (r : Word32) : (s.completeKeepingStatus r).rxn = s.rxn := rfl
@[simp] theorem State.completeKeepingStatus_phase (s : State) (r : Word32) : (s.completeKeepingStatus r).phase = .idle := rfl
@[simp] theorem State.completeKeepingStatus_tstart (s : State) (r : Word32) : (s.completeKeepingStatus r).tstart = s.tstart := rfl
@[simp] theorem State.completeKeepingStatus_cmd (s : State) (r : Word32) : (s.completeKeepingStatus r).cmd = s.cmd := rfl
@[simp] theorem State.completeKeepingStatus_result (s : State) (r : Word32) : (s.completeKeepingStatus r).result = r := rfl
@[simp] theorem State.completeKeepingStatus_status (s : State) (r : Word32) : (s.completeKeepingStatus r).status = s.status := rfl
@[simp] theorem State.completeKeepingStatus_busy (s : State) (r : Word32) : (s.completeKeepingStatus r).busy = false := rfl
@[simp] theorem State.completeKeepingStatus_clock (s : State) (r : Word32) : (s.completeKeepingStatus r).clock = s.clock := rfl
@[simp] theorem State.completeKeepingStatus_rxq (s : State) (r : Word32) : (s.completeKeepingStatus r).rxq = s.rxq := rfl
@[simp] theorem State.completeKeepingStatus_txlog (s : State) (r : Word32) : (s.completeKeepingStatus r).txlog = s.txlog := rfl
@[simp] theorem State.completeKeepingStatus_moves (s : State) (r : Word32) : (s.completeKeepingStatus r).moves = s.moves := rfl
@[simp] theorem State.completeKeepingStatus_drifts (s : State) (r : Word32) : (s.completeKeepingStatus r).drifts = s.drifts := rfl
@[simp] theorem State.completeKeepingStatus_moveCount (s : State) (r : Word32) : (s.completeKeepingStatus r).moveCount = s.moveCount := rfl
@[simp] theorem State.completeKeepingStatus_driftCount (s : State) (r : Word32) : (s.completeKeepingStatus r).driftCount = s.driftCount := rfl
@[simp] theorem State.completeKeepingStatus_inputs (s : State) (r : Word32) : (s.completeKeepingStatus r).inputs = s.inputs := rfl
@[simp] theorem State.completeKeepingStatus_epoch (s : State) (r : Word32) : (s.completeKeepingStatus r).epoch = s.epoch := rfl
@[simp] theorem State.completeKeepingStatus_memRead (s : State) (r : Word32) (sp : Space) (a : Nat) : (s.completeKeepingStatus r).memRead sp a = s.memRead sp a := by
  cases sp <;> rfl

@[simp] theorem State.raise_addr (s : State) (e : ErrorClass) (r : Word32) : (s.raise e r).addr = s.addr := rfl
@[simp] theorem State.raise_specific (s : State) (e : ErrorClass) (r : Word32) : (s.raise e r).specific = s.specific := rfl
@[simp] theorem State.raise_timeout (s : State) (e : ErrorClass) (r : Word32) : (s.raise e r).timeout = s.timeout := rfl
@[simp] theorem State.raise_suppress (s : State) (e : ErrorClass) (r : Word32) : (s.raise e r).suppress = s.suppress := rfl
@[simp] theorem State.raise_lastread (s : State) (e : ErrorClass) (r : Word32) : (s.raise e r).lastread = s.lastread := rfl
@[simp] theorem State.raise_gas (s : State) (e : ErrorClass) (r : Word32) : (s.raise e r).gas = s.gas := rfl
@[simp] theorem State.raise_airp (s : State) (e : ErrorClass) (r : Word32) : (s.raise e r).airp = s.airp := rfl
@[simp] theorem State.raise_crchi (s : State) (e : ErrorClass) (r : Word32) : (s.raise e r).crchi = s.crchi := rfl
@[simp] theorem State.raise_crclo (s : State) (e : ErrorClass) (r : Word32) : (s.raise e r).crclo = s.crclo := rfl
@[simp] theorem State.raise_idx (s : State) (e : ErrorClass) (r : Word32) : (s.raise e r).idx = s.idx := rfl
@[simp] theorem State.raise_txbuf (s : State) (e : ErrorClass) (r : Word32) : (s.raise e r).txbuf = s.txbuf := rfl
@[simp] theorem State.raise_respbuf (s : State) (e : ErrorClass) (r : Word32) : (s.raise e r).respbuf = s.respbuf := rfl
@[simp] theorem State.raise_txlen (s : State) (e : ErrorClass) (r : Word32) : (s.raise e r).txlen = s.txlen := rfl
@[simp] theorem State.raise_rxlen (s : State) (e : ErrorClass) (r : Word32) : (s.raise e r).rxlen = s.rxlen := rfl
@[simp] theorem State.raise_txi (s : State) (e : ErrorClass) (r : Word32) : (s.raise e r).txi = s.txi := rfl
@[simp] theorem State.raise_rxn (s : State) (e : ErrorClass) (r : Word32) : (s.raise e r).rxn = s.rxn := rfl
@[simp] theorem State.raise_phase (s : State) (e : ErrorClass) (r : Word32) : (s.raise e r).phase = .idle := rfl
@[simp] theorem State.raise_tstart (s : State) (e : ErrorClass) (r : Word32) : (s.raise e r).tstart = s.tstart := rfl
@[simp] theorem State.raise_cmd (s : State) (e : ErrorClass) (r : Word32) : (s.raise e r).cmd = s.cmd := rfl
@[simp] theorem State.raise_result (s : State) (e : ErrorClass) (r : Word32) : (s.raise e r).result = r := rfl
@[simp] theorem State.raise_status (s : State) (e : ErrorClass) (r : Word32) : (s.raise e r).status = e.code := rfl
@[simp] theorem State.raise_busy (s : State) (e : ErrorClass) (r : Word32) : (s.raise e r).busy = false := rfl
@[simp] theorem State.raise_clock (s : State) (e : ErrorClass) (r : Word32) : (s.raise e r).clock = s.clock := rfl
@[simp] theorem State.raise_rxq (s : State) (e : ErrorClass) (r : Word32) : (s.raise e r).rxq = s.rxq := rfl
@[simp] theorem State.raise_txlog (s : State) (e : ErrorClass) (r : Word32) : (s.raise e r).txlog = s.txlog := rfl
@[simp] theorem State.raise_moves (s : State) (e : ErrorClass) (r : Word32) : (s.raise e r).moves = s.moves := rfl
@[simp] theorem State.raise_drifts (s : State) (e : ErrorClass) (r : Word32) : (s.raise e r).drifts = s.drifts := rfl
@[simp] theorem State.raise_moveCount (s : State) (e : ErrorClass) (r : Word32) : (s.raise e r).moveCount = s.moveCount := rfl
@[simp] theorem State.raise_driftCount (s : State) (e : ErrorClass) (r : Word32) : (s.raise e r).driftCount = s.driftCount := rfl
@[simp] theorem State.raise_inputs (s : State) (e : ErrorClass) (r : Word32) : (s.raise e r).inputs = s.inputs := rfl
@[simp] theorem State.raise_epoch (s : State) (e : ErrorClass) (r : Word32) : (s.raise e r).epoch = s.epoch := rfl
@[simp] theorem State.raise_memRead (s : State) (e : ErrorClass) (r : Word32) (sp : Space) (a : Nat) : (s.raise e r).memRead sp a = s.memRead sp a := by
  cases sp <;> rfl

@[simp] theorem State.enter_addr (s : State) (cl rl : Nat) : (s.enter cl rl).addr = s.addr := rfl
@[simp] theorem State.enter_specific (s : State) (cl rl : Nat) : (s.enter cl rl).specific = s.specific := rfl
@[simp] theorem State.enter_timeout (s : State) (cl rl : Nat) : (s.enter cl rl).timeout = s.timeout := rfl
@[simp] theorem State.enter_suppress (s : State) (cl rl : Nat) : (s.enter cl rl).suppress = s.suppress := rfl
@[simp] theorem State.enter_lastread (s : State) (cl rl : Nat) : (s.enter cl rl).lastread = s.lastread := rfl
@[simp] theorem State.enter_gas (s : State) (cl rl : Nat) : (s.enter cl rl).gas = s.gas := rfl
@[simp] theorem State.enter_airp (s : State) (cl rl : Nat) : (s.enter cl rl).airp = s.airp := rfl
@[simp] theorem State.enter_crchi (s : State) (cl rl : Nat) : (s.enter cl rl).crchi = s.crchi := rfl
@[simp] theorem State.enter_crclo (s : State) (cl rl : Nat) : (s.enter cl rl).crclo = s.crclo := rfl
@[simp] theorem State.enter_idx (s : State) (cl rl : Nat) : (s.enter cl rl).idx = s.idx := rfl
@[simp] theorem State.enter_txbuf (s : State) (cl rl : Nat) : (s.enter cl rl).txbuf = s.txbuf := rfl
@[simp] theorem State.enter_respbuf (s : State) (cl rl : Nat) : (s.enter cl rl).respbuf = s.respbuf := rfl
@[simp] theorem State.enter_txlen (s : State) (cl rl : Nat) : (s.enter cl rl).txlen = BitVec.ofNat 8 cl := rfl
@[simp] theorem State.enter_rxlen (s : State) (cl rl : Nat) : (s.enter cl rl).rxlen = BitVec.ofNat 8 rl := rfl
@[simp] theorem State.enter_txi (s : State) (cl rl : Nat) : (s.enter cl rl).txi = s.txi := rfl
@[simp] theorem State.enter_rxn (s : State) (cl rl : Nat) : (s.enter cl rl).rxn = s.rxn := rfl
@[simp] theorem State.enter_phase (s : State) (cl rl : Nat) : (s.enter cl rl).phase = .address := rfl
@[simp] theorem State.enter_tstart (s : State) (cl rl : Nat) : (s.enter cl rl).tstart = s.tstart := rfl
@[simp] theorem State.enter_cmd (s : State) (cl rl : Nat) : (s.enter cl rl).cmd = s.cmd := rfl
@[simp] theorem State.enter_result (s : State) (cl rl : Nat) : (s.enter cl rl).result = s.result := rfl
@[simp] theorem State.enter_status (s : State) (cl rl : Nat) : (s.enter cl rl).status = s.status := rfl
@[simp] theorem State.enter_busy (s : State) (cl rl : Nat) : (s.enter cl rl).busy = s.busy := rfl
@[simp] theorem State.enter_clock (s : State) (cl rl : Nat) : (s.enter cl rl).clock = s.clock := rfl
@[simp] theorem State.enter_rxq (s : State) (cl rl : Nat) : (s.enter cl rl).rxq = s.rxq := rfl
@[simp] theorem State.enter_txlog (s : State) (cl rl : Nat) : (s.enter cl rl).txlog = s.txlog := rfl
@[simp] theorem State.enter_moves (s : State) (cl rl : Nat) : (s.enter cl rl).moves = s.moves := rfl
@[simp] theorem State.enter_drifts (s : State) (cl rl : Nat) : (s.enter cl rl).drifts = s.drifts := rfl
@[simp] theorem State.enter_moveCount (s : State) (cl rl : Nat) : (s.enter cl rl).moveCount = s.moveCount := rfl
@[simp] theorem State.enter_driftCount (s : State) (cl rl : Nat) : (s.enter cl rl).driftCount = s.driftCount := rfl
@[simp] theorem State.enter_inputs (s : State) (cl rl : Nat) : (s.enter cl rl).inputs = s.inputs := rfl
@[simp] theorem State.enter_epoch (s : State) (cl rl : Nat) : (s.enter cl rl).epoch = s.epoch := rfl
@[simp] theorem State.enter_memRead (s : State) (cl rl : Nat) (sp : Space) (a : Nat) : (s.enter cl rl).memRead sp a = s.memRead sp a := by
  cases sp <;> rfl

@[simp] theorem State.admitRead_addr (s : State) : s.admitRead.addr = s.addr := rfl
@[simp] theorem State.admitRead_specific (s : State) : s.admitRead.specific = s.specific := rfl
@[simp] theorem State.admitRead_timeout (s : State) : s.admitRead.timeout = s.timeout := rfl
@[simp] theorem State.admitRead_suppress (s : State) : s.admitRead.suppress = s.suppress := rfl
@[simp] theorem State.admitRead_lastread (s : State) : s.admitRead.lastread = s.clock := rfl
@[simp] theorem State.admitRead_gas (s : State) : s.admitRead.gas = s.gas := rfl
@[simp] theorem State.admitRead_airp (s : State) : s.admitRead.airp = s.airp := rfl
@[simp] theorem State.admitRead_crchi (s : State) : s.admitRead.crchi = s.crchi := rfl
@[simp] theorem State.admitRead_crclo (s : State) : s.admitRead.crclo = s.crclo := rfl
@[simp] theorem State.admitRead_idx (s : State) : s.admitRead.idx = s.idx := rfl
@[simp] theorem State.admitRead_txbuf (s : State) : s.admitRead.txbuf = s.txbuf := rfl
@[simp] theorem State.admitRead_respbuf (s : State) : s.admitRead.respbuf = s.respbuf := rfl
@[simp] theorem State.admitRead_txlen (s : State) : s.admitRead.txlen = s.txlen := rfl
@[simp] theorem State.admitRead_rxlen (s : State) : s.admitRead.rxlen = s.rxlen := rfl
@[simp] theorem State.admitRead_txi (s : State) : s.admitRead.txi = s.txi := rfl
@[simp] theorem State.admitRead_rxn (s : State) : s.admitRead.rxn = s.rxn := rfl
@[simp] theorem State.admitRead_phase (s : State) : s.admitRead.phase = s.phase := rfl
@[simp] theorem State.admitRead_tstart (s : State) : s.admitRead.tstart = s.tstart := rfl
@[simp] theorem State.admitRead_cmd (s : State) : s.admitRead.cmd = s.cmd := rfl
@[simp] theorem State.admitRead_result (s : State) : s.admitRead.result = s.result := rfl
@[simp] theorem State.admitRead_status (s : State) : s.admitRead.status = s.status := rfl
@[simp] theorem State.admitRead_busy (s : State) : s.admitRead.busy = s.busy := rfl
@[simp] theorem State.admitRead_clock (s : State) : s.admitRead.clock = s.clock := rfl
@[simp] theorem State.admitRead_rxq (s : State) : s.admitRead.rxq = s.rxq := rfl
@[simp] theorem State.admitRead_txlog (s : State) : s.admitRead.txlog = s.txlog := rfl
@[simp] theorem State.admitRead_moves (s : State) : s.admitRead.moves = s.moves := rfl
@[simp] theorem State.admitRead_drifts (s : State) : s.admitRead.drifts = s.drifts := rfl
@[simp] theorem State.admitRead_moveCount (s : State) : s.admitRead.moveCount = s.moveCount := rfl
@[simp] theorem State.admitRead_driftCount (s : State) : s.admitRead.driftCount = s.driftCount := rfl
@[simp] theorem State.admitRead_inputs (s : State) : s.admitRead.inputs = s.inputs := rfl
@[simp] theorem State.admitRead_epoch (s : State) : s.admitRead.epoch = s.epoch := rfl
@[simp] theorem State.admitRead_memRead (s : State) (sp : Space) (a : Nat) : s.admitRead.memRead sp a = s.memRead sp a := by
  cases sp <;> rfl

@[simp] theorem State.txWrite_addr (s : State) (a : Nat) (b : Byte) : (s.txWrite a b).addr = s.addr := by
  unfold State.txWrite; split <;> rfl
@[simp] theorem State.txWrite_specific (s : State) (a : Nat) (b : Byte) : (s.txWrite a b).specific = s.specific := by
  unfold State.txWrite; split <;> rfl
@[simp] theorem State.txWrite_timeout (s : State) (a : Nat) (b : Byte) : (s.txWrite a b).timeout = s.timeout := by
  unfold State.txWrite; split <;> rfl
@[simp] theorem State.txWrite_suppress (s : State) (a : Nat) (b : Byte) : (s.txWrite a b).suppress = s.suppress := by
  unfold State.txWrite; split <;> rfl
@[simp] theorem State.txWrite_lastread (s : State) (a : Nat) (b : Byte) : (s.txWrite a b).lastread = s.lastread := by
  unfold State.txWrite; split <;> rfl
@[simp] theorem State.txWrite_gas (s : State) (a : Nat) (b : Byte) : (s.txWrite a b).gas = s.gas := by
  unfold State.txWrite; split <;> rfl
@[simp] theorem State.txWrite_airp (s : State) (a : Nat) (b : Byte) : (s.txWrite a b).airp = s.airp := by
  unfold State.txWrite; split <;> rfl
@[simp] theorem State.txWrite_crchi (s : State) (a : Nat) (b : Byte) : (s.txWrite a b).crchi = s.crchi := by
  unfold State.txWrite; split <;> rfl
@[simp] theorem State.txWrite_crclo (s : State) (a : Nat) (b : Byte) : (s.txWrite a b).crclo = s.crclo := by
  unfold State.txWrite; split <;> rfl
@[simp] theorem State.txWrite_idx (s : State) (a : Nat) (b : Byte) : (s.txWrite a b).idx = s.idx := by
  unfold State.txWrite; split <;> rfl
@[simp] theorem State.txWrite_respbuf (s : State) (a : Nat) (b : Byte) : (s.txWrite a b).respbuf = s.respbuf := by
  unfold State.txWrite; split <;> rfl
@[simp] theorem State.txWrite_txlen (s : State) (a : Nat) (b : Byte) : (s.txWrite a b).txlen = s.txlen := by
  unfold State.txWrite; split <;> rfl
@[simp] theorem State.txWrite_rxlen (s : State) (a : Nat) (b : Byte) : (s.txWrite a b).rxlen = s.rxlen := by
  unfold State.txWrite; split <;> rfl
@[simp] theorem State.txWrite_txi (s : State) (a : Nat) (b : Byte) : (s.txWrite a b).txi = s.txi := by
  unfold State.txWrite; split <;> rfl
@[simp] theorem State.txWrite_rxn (s : State) (a : Nat) (b : Byte) : (s.txWrite a b).rxn = s.rxn := by
  unfold State.txWrite; split <;> rfl
@[simp] theorem State.txWrite_phase (s : State) (a : Nat) (b : Byte) : (s.txWrite a b).phase = s.phase := by
  unfold State.txWrite; split <;> rfl
@[simp] theorem State.txWrite_tstart (s : State) (a : Nat) (b : Byte) : (s.txWrite a b).tstart = s.tstart := by
  unfold State.txWrite; split <;> rfl
@[simp] theorem State.txWrite_cmd (s : State) (a : Nat) (b : Byte) : (s.txWrite a b).cmd = s.cmd := by
  unfold State.txWrite; split <;> rfl
@[simp] theorem State.txWrite_result (s : State) (a : Nat) (b : Byte) : (s.txWrite a b).result = s.result := by
  unfold State.txWrite; split <;> rfl
@[simp] theorem State.txWrite_status (s : State) (a : Nat) (b : Byte) : (s.txWrite a b).status = s.status := by
  unfold State.txWrite; split <;> rfl
@[simp] theorem State.txWrite_busy (s : State) (a : Nat) (b : Byte) : (s.txWrite a b).busy = s.busy := by
  unfold State.txWrite; split <;> rfl
@[simp] theorem State.txWrite_clock (s : State) (a : Nat) (b : Byte) : (s.txWrite a b).clock = s.clock := by
  unfold State.txWrite; split <;> rfl
@[simp] theorem State.txWrite_rxq (s : State) (a : Nat) (b : Byte) : (s.txWrite a b).rxq = s.rxq := by
  unfold State.txWrite; split <;> rfl
@[simp] theorem State.txWrite_txlog (s : State) (a : Nat) (b : Byte) : (s.txWrite a b).txlog = s.txlog := by
  unfold State.txWrite; split <;> rfl
@[simp] theorem State.txWrite_moves (s : State) (a : Nat) (b : Byte) : (s.txWrite a b).moves = s.moves := by
  unfold State.txWrite; split <;> rfl
@[simp] theorem State.txWrite_drifts (s : State) (a : Nat) (b : Byte) : (s.txWrite a b).drifts = s.drifts := by
  unfold State.txWrite; split <;> rfl
@[simp] theorem State.txWrite_moveCount (s : State) (a : Nat) (b : Byte) : (s.txWrite a b).moveCount = s.moveCount := by
  unfold State.txWrite; split <;> rfl
@[simp] theorem State.txWrite_driftCount (s : State) (a : Nat) (b : Byte) : (s.txWrite a b).driftCount = s.driftCount := by
  unfold State.txWrite; split <;> rfl
@[simp] theorem State.txWrite_inputs (s : State) (a : Nat) (b : Byte) : (s.txWrite a b).inputs = s.inputs := by
  unfold State.txWrite; split <;> rfl
@[simp] theorem State.txWrite_epoch (s : State) (a : Nat) (b : Byte) : (s.txWrite a b).epoch = s.epoch := by
  unfold State.txWrite; split <;> rfl

@[simp] theorem State.respWrite_addr (s : State) (a : Nat) (b : Byte) : (s.respWrite a b).addr = s.addr := by
  unfold State.respWrite; split <;> rfl
@[simp] theorem State.respWrite_specific (s : State) (a : Nat) (b : Byte) : (s.respWrite a b).specific = s.specific := by
  unfold State.respWrite; split <;> rfl
@[simp] theorem State.respWrite_timeout (s : State) (a : Nat) (b : Byte) : (s.respWrite a b).timeout = s.timeout := by
  unfold State.respWrite; split <;> rfl
@[simp] theorem State.respWrite_suppress (s : State) (a : Nat) (b : Byte) : (s.respWrite a b).suppress = s.suppress := by
  unfold State.respWrite; split <;> rfl
@[simp] theorem State.respWrite_lastread (s : State) (a : Nat) (b : Byte) : (s.respWrite a b).lastread = s.lastread := by
  unfold State.respWrite; split <;> rfl
@[simp] theorem State.respWrite_gas (s : State) (a : Nat) (b : Byte) : (s.respWrite a b).gas = s.gas := by
  unfold State.respWrite; split <;> rfl
@[simp] theorem State.respWrite_airp (s : State) (a : Nat) (b : Byte) : (s.respWrite a b).airp = s.airp := by
  unfold State.respWrite; split <;> rfl
@[simp] theorem State.respWrite_crchi (s : State) (a : Nat) (b : Byte) : (s.respWrite a b).crchi = s.crchi := by
  unfold State.respWrite; split <;> rfl
@[simp] theorem State.respWrite_crclo (s : State) (a : Nat) (b : Byte) : (s.respWrite a b).crclo = s.crclo := by
  unfold State.respWrite; split <;> rfl
@[simp] theorem State.respWrite_idx (s : State) (a : Nat) (b : Byte) : (s.respWrite a b).idx = s.idx := by
  unfold State.respWrite; split <;> rfl
@[simp] theorem State.respWrite_txbuf (s : State) (a : Nat) (b : Byte) : (s.respWrite a b).txbuf = s.txbuf := by
  unfold State.respWrite; split <;> rfl
@[simp] theorem State.respWrite_txlen (s : State) (a : Nat) (b : Byte) : (s.respWrite a b).txlen = s.txlen := by
  unfold State.respWrite; split <;> rfl
@[simp] theorem State.respWrite_rxlen (s : State) (a : Nat) (b : Byte) : (s.respWrite a b).rxlen = s.rxlen := by
  unfold State.respWrite; split <;> rfl
@[simp] theorem State.respWrite_txi (s : State) (a : Nat) (b : Byte) : (s.respWrite a b).txi = s.txi := by
  unfold State.respWrite; split <;> rfl
@[simp] theorem State.respWrite_rxn (s : State) (a : Nat) (b : Byte) : (s.respWrite a b).rxn = s.rxn := by
  unfold State.respWrite; split <;> rfl
@[simp] theorem State.respWrite_phase (s : State) (a : Nat) (b : Byte) : (s.respWrite a b).phase = s.phase := by
  unfold State.respWrite; split <;> rfl
@[simp] theorem State.respWrite_tstart (s : State) (a : Nat) (b : Byte) : (s.respWrite a b).tstart = s.tstart := by
  unfold State.respWrite; split <;> rfl
@[simp] theorem State.respWrite_cmd (s : State) (a : Nat) (b : Byte) : (s.respWrite a b).cmd = s.cmd := by
  unfold State.respWrite; split <;> rfl
@[simp] theorem State.respWrite_result (s : State) (a : Nat) (b : Byte) : (s.respWrite a b).result = s.result := by
  unfold State.respWrite; split <;> rfl
@[simp] theorem State.respWrite_status (s : State) (a : Nat) (b : Byte) : (s.respWrite a b).status = s.status := by
  unfold State.respWrite; split <;> rfl
@[simp] theorem State.respWrite_busy (s : State) (a : Nat) (b : Byte) : (s.respWrite a b).busy = s.busy := by
  unfold State.respWrite; split <;> rfl
@[simp] theorem State.respWrite_clock (s : State) (a : Nat) (b : Byte) : (s.respWrite a b).clock = s.clock := by
  unfold State.respWrite; split <;> rfl
@[simp] theorem State.respWrite_rxq (s : State) (a : Nat) (b : Byte) : (s.respWrite a b).rxq = s.rxq := by
  unfold State.respWrite; split <;> rfl
@[simp] theorem State.respWrite_txlog (s : State) (a : Nat) (b : Byte) : (s.respWrite a b).txlog = s.txlog := by
  unfold State.respWrite; split <;> rfl
@[simp] theorem State.respWrite_moves (s : State) (a : Nat) (b : Byte) : (s.respWrite a b).moves = s.moves := by
  unfold State.respWrite; split <;> rfl
@[simp] theorem State.respWrite_drifts (s : State) (a : Nat) (b : Byte) : (s.respWrite a b).drifts = s.drifts := by
  unfold State.respWrite; split <;> rfl
@[simp] theorem State.respWrite_moveCount (s : State) (a : Nat) (b : Byte) : (s.respWrite a b).moveCount = s.moveCount := by
  unfold State.respWrite; split <;> rfl
@[simp] theorem State.respWrite_driftCount (s : State) (a : Nat) (b : Byte) : (s.respWrite a b).driftCount = s.driftCount := by
  unfold State.respWrite; split <;> rfl
@[simp] theorem State.respWrite_inputs (s : State) (a : Nat) (b : Byte) : (s.respWrite a b).inputs = s.inputs := by
  unfold State.respWrite; split <;> rfl
@[simp] theorem State.respWrite_epoch (s : State) (a : Nat) (b : Byte) : (s.respWrite a b).epoch = s.epoch := by
  unfold State.respWrite; split <;> rfl

@[simp] theorem State.startReceive_addr (s : State) : s.startReceive.addr = s.addr := rfl
@[simp] theorem State.startReceive_specific (s : State) : s.startReceive.specific = s.specific := rfl
@[simp] theorem State.startReceive_timeout (s : State) : s.startReceive.timeout = s.timeout := rfl
@[simp] theorem State.startReceive_suppress (s : State) : s.startReceive.suppress = s.suppress := rfl
@[simp] theorem State.startReceive_lastread (s : State) : s.startReceive.lastread = s.lastread := rfl
@[simp] theorem State.startReceive_gas (s : State) : s.startReceive.gas = s.gas := rfl
@[simp] theorem State.startReceive_airp (s : State) : s.startReceive.airp = s.airp := rfl
@[simp] theorem State.startReceive_crchi (s : State) : s.startReceive.crchi = s.crchi := rfl
@[simp] theorem State.startReceive_crclo (s : State) : s.startReceive.crclo = s.crclo := rfl
@[simp] theorem State.startReceive_idx (s : State) : s.startReceive.idx = s.idx := rfl
@[simp] theorem State.startReceive_txbuf (s : State) : s.startReceive.txbuf = s.txbuf := rfl
@[simp] theorem State.startReceive_respbuf (s : State) : s.startReceive.respbuf = s.respbuf := rfl
@[simp] theorem State.startReceive_txlen (s : State) : s.startReceive.txlen = s.txlen := rfl
@[simp] theorem State.startReceive_rxlen (s : State) : s.startReceive.rxlen = s.rxlen := rfl
@[simp] theorem State.startReceive_txi (s : State) : s.startReceive.txi = s.txi := rfl
@[simp] theorem State.startReceive_rxn (s : State) : s.startReceive.rxn = 0 := rfl
@[simp] theorem State.startReceive_phase (s : State) : s.startReceive.phase = .rx := rfl
@[simp] theorem State.startReceive_tstart (s : State) : s.startReceive.tstart = s.clock + s.nextDrift := rfl
@[simp] theorem State.startReceive_cmd (s : State) : s.startReceive.cmd = s.cmd := rfl
@[simp] theorem State.startReceive_result (s : State) : s.startReceive.result = s.result := rfl
@[simp] theorem State.startReceive_status (s : State) : s.startReceive.status = s.status := rfl
@[simp] theorem State.startReceive_busy (s : State) : s.startReceive.busy = s.busy := rfl
@[simp] theorem State.startReceive_clock (s : State) : s.startReceive.clock = s.clock + s.nextDrift := rfl
@[simp] theorem State.startReceive_rxq (s : State) : s.startReceive.rxq = s.rxq := rfl
@[simp] theorem State.startReceive_txlog (s : State) : s.startReceive.txlog = s.txlog := rfl
@[simp] theorem State.startReceive_moves (s : State) : s.startReceive.moves = s.moves := rfl
@[simp] theorem State.startReceive_drifts (s : State) : s.startReceive.drifts = s.drifts.tail := rfl
@[simp] theorem State.startReceive_moveCount (s : State) : s.startReceive.moveCount = s.moveCount := rfl
@[simp] theorem State.startReceive_driftCount (s : State) : s.startReceive.driftCount = s.driftCount + 1 := rfl
@[simp] theorem State.startReceive_inputs (s : State) : s.startReceive.inputs = s.inputs := rfl
@[simp] theorem State.startReceive_epoch (s : State) : s.startReceive.epoch = s.epoch := rfl
@[simp] theorem State.startReceive_memRead (s : State) (sp : Space) (a : Nat) : s.startReceive.memRead sp a = s.memRead sp a := by
  cases sp <;> rfl

end Sys2Proof.Machine
end

