-- ==== Sys2Proof/Laws/Memory.lean ====
section
/-! SUPPORT. The buffers: what a read gives after a write, and that every write keeps the canonical form. -/

namespace Sys2Proof.Machine

/-- A read after a write gives the written byte at that offset and the old byte elsewhere. -/
theorem Memory.find_put (m : Memory) (a c : Nat) (b : Byte) :
    Memory.find (Memory.put m a b) c = if c = a then some b else Memory.find m c := by
  induction m with
  | nil => simp [Memory.put, Memory.find, eq_comm]
  | cons x m ih =>
    obtain ⟨k, d⟩ := x
    simp only [Memory.put]
    split
    · simp only [Memory.find, eq_comm (a := a)]
    · split
      · subst k
        simp only [Memory.find, eq_comm (a := a)]
        split <;> rfl
      · simp only [Memory.find, ih]
        split
        · rw [if_neg (by omega)]
        · rfl

theorem Memory.mem_put {m : Memory} {a : Nat} {b : Byte} {x : Host.Cell} (h : x ∈ Memory.put m a b) :
    x = (a, b) ∨ x ∈ m := by
  induction m with
  | nil => simpa [Memory.put] using h
  | cons y m ih =>
    obtain ⟨k, d⟩ := y
    simp only [Memory.put] at h
    split at h
    · simpa using h
    · split at h
      · rcases List.mem_cons.1 h with h | h
        · exact .inl h
        · exact .inr (List.mem_cons_of_mem _ h)
      · rcases List.mem_cons.1 h with h | h
        · exact .inr (h ▸ List.mem_cons_self ..)
        · exact (ih h).imp id (List.mem_cons_of_mem _)

/-- A write inside the buffer keeps the canonical form. -/
theorem Memory.wf_put {m : Memory} {a : Nat} {b : Byte} (h : Memory.wf m) (ha : a < bufCap) :
    Memory.wf (Memory.put m a b) := by
  refine ⟨?_, fun x hx => (Memory.mem_put hx).elim (· ▸ ha) (h.2 x)⟩
  have h1 := h.1
  clear h
  induction m with
  | nil => simp [Memory.put]
  | cons y m ih =>
    obtain ⟨k, d⟩ := y
    obtain ⟨hk, hm⟩ := List.pairwise_cons.1 h1
    simp only [Memory.put]
    split
    · refine List.pairwise_cons.2 ⟨fun x hx => ?_, h1⟩
      rcases List.mem_cons.1 hx with rfl | hx
      · assumption
      · exact lt_trans (by assumption) (hk x hx)
    · split
      · subst k
        exact List.pairwise_cons.2 ⟨hk, hm⟩
      · refine List.pairwise_cons.2 ⟨fun x hx => ?_, ih hm⟩
        rcases Memory.mem_put hx with rfl | hx
        · show k < a
          omega
        · exact hk x hx

theorem Memory.find_of_lt {k a : Nat} {d : Byte} {m : Memory} (h : ((k, d) :: m : Memory).Pairwise fun x y => x.1 < y.1)
    (ha : a < k) : Memory.find ((k, d) :: m) a = none := by
  induction m generalizing k d with
  | nil => simp only [Memory.find]; rw [if_neg (by omega)]
  | cons y m ih =>
    have hy : k < y.1 := (List.pairwise_cons.1 h).1 y (List.mem_cons_self ..)
    rw [Memory.find, if_neg (by omega)]
    exact ih (List.pairwise_cons.1 h).2 (by omega)

/-- Canonical buffers with the same listed bytes are the same list. -/
theorem Memory.ext_of_wf {m n : Memory} (hm : Memory.wf m) (hn : Memory.wf n)
    (h : ∀ a, Memory.find m a = Memory.find n a) : m = n := by
  obtain ⟨hm, -⟩ := hm
  obtain ⟨hn, -⟩ := hn
  induction m generalizing n with
  | nil =>
    cases n with
    | nil => rfl
    | cons y n => have := h y.1; simp [Memory.find] at this
  | cons x m ih =>
    cases n with
    | nil => have := h x.1; simp [Memory.find] at this
    | cons y n =>
      obtain ⟨j, b⟩ := x
      obtain ⟨k, c⟩ := y
      have hjk : j = k := by
        rcases lt_trichotomy j k with hlt | rfl | hlt
        · have := h j; rw [Memory.find_of_lt hn hlt] at this; simp [Memory.find] at this
        · rfl
        · have := h k; rw [Memory.find_of_lt hm hlt] at this; simp [Memory.find] at this
      subst hjk
      have hbc : b = c := by simpa [Memory.find] using h j
      subst hbc
      refine congrArg _ (ih (fun a => ?_) (List.pairwise_cons.1 hm).2 (List.pairwise_cons.1 hn).2)
      by_cases ha : j = a
      · subst ha
        have key : ∀ l : Memory, ((j, b) :: l : Memory).Pairwise (fun x y => x.1 < y.1) → Memory.find l j = none := by
          intro l hl
          cases l with
          | nil => rfl
          | cons z l => exact Memory.find_of_lt (List.pairwise_cons.1 hl).2 ((List.pairwise_cons.1 hl).1 z (List.mem_cons_self ..))
        rw [key m hm, key n hn]
      · simpa [Memory.find, ha] using h a

/-- `TXBUF[k] <- b` (R9): what every byte of every space reads as afterwards. -/
theorem State.txWrite_memRead (s : State) (k : Nat) (b : Byte) (sp : Space) (a : Nat) :
    (s.txWrite k b).memRead sp a = if sp = .txbuf ∧ a = k ∧ k < bufCap then b else s.memRead sp a := by
  unfold State.txWrite
  split
  · rename_i hk
    cases sp with
    | txbuf =>
      simp only [State.memRead, Memory.find_put, true_and, hk, and_true]
      split <;> rfl
    | _ => simp [State.memRead]
  · rename_i hk
    rw [if_neg (by tauto)]

/-- `RESPBUF[k] <- b` (R9): what every byte of every space reads as afterwards. -/
theorem State.respWrite_memRead (s : State) (k : Nat) (b : Byte) (sp : Space) (a : Nat) :
    (s.respWrite k b).memRead sp a = if sp = .respbuf ∧ a = k ∧ k < bufCap then b else s.memRead sp a := by
  unfold State.respWrite
  split
  · rename_i hk
    cases sp with
    | respbuf =>
      simp only [State.memRead, Memory.find_put, true_and, hk, and_true]
      split <;> rfl
    | _ => simp [State.memRead]
  · rename_i hk
    rw [if_neg (by tauto)]

theorem State.txWrite_wf (s : State) (k : Nat) (b : Byte) (h : Memory.wf s.txbuf) : Memory.wf (s.txWrite k b).txbuf := by
  unfold State.txWrite
  split
  · exact Memory.wf_put h (by assumption)
  · exact h

theorem State.respWrite_wf (s : State) (k : Nat) (b : Byte) (h : Memory.wf s.respbuf) :
    Memory.wf (s.respWrite k b).respbuf := by
  unfold State.respWrite
  split
  · exact Memory.wf_put h (by assumption)
  · exact h

/-- Nothing is listed after reset, and that is canonical. -/
theorem Memory.wf_nil : Memory.wf [] := by decide

/-- The bytes of a range, one by one. -/
theorem State.bytes_getElem? (s : State) (sp : Space) (n a : Nat) :
    (s.bytes sp n)[a]? = if a < n then some (s.memRead sp a) else none := by
  unfold State.bytes
  rw [List.getElem?_map]
  split
  · rw [List.getElem?_range (by assumption)]; rfl
  · rw [List.getElem?_eq_none (by simp; omega)]; rfl

@[simp] theorem State.bytes_length (s : State) (sp : Space) (n : Nat) : (s.bytes sp n).length = n := by
  simp [State.bytes]

theorem State.bytes_congr {s t : State} {sp : Space} {n : Nat} (h : ∀ a, a < n → t.memRead sp a = s.memRead sp a) :
    t.bytes sp n = s.bytes sp n := by
  unfold State.bytes
  exact List.map_congr_left fun a ha => h a (List.mem_range.1 ha)

theorem State.bytes_take (s : State) (sp : Space) (m n : Nat) (h : m ≤ n) : (s.bytes sp n).take m = s.bytes sp m := by
  refine List.ext_getElem? fun i => ?_
  rw [List.getElem?_take]
  simp only [State.bytes_getElem?]
  split_ifs <;> first | rfl | omega

end Sys2Proof.Machine
end

