-- ==== Sys2Proof/Laws/Crc.lean ====
section
/-! SUPPORT. The CRC unit: what a computation leaves in its registers, and that it touches nothing else. -/

namespace Sys2Proof.Machine

/-- The two 8-bit accumulators of a state as a pair. -/
abbrev State.accumulators (s : State) : Accumulators := { hi := s.crchi, lo := s.crclo }

@[simp] theorem crcValue_extract_lo (a : Accumulators) : (crcValue a).extractLsb' 0 8 = a.lo :=
  extract_low_append _ _

@[simp] theorem crcValue_extract_hi (a : Accumulators) : (crcValue a).extractLsb' 8 8 = a.hi :=
  extract_high_append _ _

theorem crcValue_injective {a b : Accumulators} (h : crcValue a = crcValue b) : a = b := by
  have hl := congrArg (BitVec.extractLsb' 0 8) h
  have hh := congrArg (BitVec.extractLsb' 8 8) h
  rw [crcValue_extract_lo, crcValue_extract_lo] at hl
  rw [crcValue_extract_hi, crcValue_extract_hi] at hh
  cases a; cases b; simp_all

theorem State.crcFold_eq (l : List Byte) (s : State) :
    ∃ i, l.foldl State.crcUnitStep s =
      { s with
        crchi := (l.foldl crcStep s.accumulators).hi
        crclo := (l.foldl crcStep s.accumulators).lo
        idx := i } := by
  induction l generalizing s with
  | nil => exact ⟨s.idx, rfl⟩
  | cons b l ih =>
    obtain ⟨i, hi⟩ := ih (s.crcUnitStep b)
    exact ⟨i, by simp only [List.foldl_cons, hi]; rfl⟩

/-- All that the CRC unit does (R90, R100): it writes `CRCHI`, `CRCLO` and `IDX` and nothing else, and the accumulators
end as the pure function's over `TXBUF[0, n)`. -/
theorem State.crcUnit_eq (s : State) (n : Nat) :
    ∃ i, s.crcUnit n =
      { s with
        crchi := ((s.bytes .txbuf n).foldl crcStep crcInit).hi
        crclo := ((s.bytes .txbuf n).foldl crcStep crcInit).lo
        idx := i } := by
  obtain ⟨i, hi⟩ := State.crcFold_eq (s.bytes .txbuf n) s.crcUnitInit
  exact ⟨i, by rw [State.crcUnit, hi]; rfl⟩

/-- The unit's result is the pure function's (R92, R94, R100). -/
theorem State.crcUnit_result (s : State) (n : Nat) : (s.crcUnit n).crcResult = crc16 (s.bytes .txbuf n) := by
  obtain ⟨i, hi⟩ := s.crcUnit_eq n
  rw [hi]; rfl

@[simp] theorem State.crcUnit_memRead (s : State) (n : Nat) (sp : Space) (a : Nat) :
    (s.crcUnit n).memRead sp a = s.memRead sp a := by
  obtain ⟨i, hi⟩ := s.crcUnit_eq n
  rw [hi]; cases sp <;> rfl

end Sys2Proof.Machine
end

