-- ==== Sys2Proof/Laws/Exchange.lean ====
section
/-! SUPPORT. The exchange (spec/41_request.md): what each of its stages leaves, in every environment, and how it ends
in an environment that answers in time and in one that does not. -/

namespace Sys2Proof.Machine

/-! ### Scripted moves -/

theorem State.environmentMove_arrivals (s : State) (k : Nat) (h : 0 < s.moves.length) :
    s.environmentMove.arrivals k = s.arrivals (k + 1) := by
  cases hm : s.moves with
  | nil => simp [hm] at h
  | cons m ms => simp [State.arrivals, State.nextMove, hm]

theorem State.environmentMove_advances (s : State) (k : Nat) (h : 0 < s.moves.length) :
    s.nextMove.advance.toNat + s.environmentMove.advances k = s.advances (k + 1) := by
  cases hm : s.moves with
  | nil => simp [hm] at h
  | cons m ms => simp [State.advances, State.nextMove, hm]

/-- The arrivals of fewer moves are the beginning of the arrivals of more. -/
theorem State.arrivals_getElem?_mono {s : State} {j k a : Nat} (hjk : j ≤ k) (ha : a < (s.arrivals j).length) :
    (s.arrivals j)[a]? = (s.arrivals k)[a]? := by
  have h : s.arrivals j <+: s.arrivals k := by
    obtain ⟨l, hl⟩ : s.moves.take j <+: s.moves.take k := by
      rw [← Nat.min_eq_left hjk, ← List.take_take]; exact List.take_prefix _ _
    unfold State.arrivals
    rw [← hl, List.flatMap_append, ← List.append_assoc]
    exact List.prefix_append _ _
  obtain ⟨l, hl⟩ := h
  rw [← hl, List.getElem?_append_left ha]

theorem State.arrivals_length_mono {s : State} {j k : Nat} (hjk : j ≤ k) :
    (s.arrivals j).length ≤ (s.arrivals k).length := by
  by_contra hlt
  have := State.arrivals_getElem?_mono (s := s) (a := (s.arrivals k).length) hjk (by omega)
  rw [List.getElem?_eq_none (le_refl _), List.getElem?_eq_none_iff] at this
  omega

/-! ### The environment's moves, scripted or free -/

theorem State.nextMove_eq_moveAt (s : State) : s.nextMove = s.moveAt 0 s.txlog := by
  unfold State.nextMove State.moveAt
  cases s.moves <;> rfl

theorem State.moveAt_of_tail {s t : State} (hm : t.moves = s.moves.tail) (hc : t.moveCount = s.moveCount + 1) (j : Nat)
    (log : List Byte) : t.moveAt j log = s.moveAt (j + 1) log := by
  unfold State.moveAt
  rw [hm, hc, show s.moveCount + 1 + j = s.moveCount + (j + 1) by omega]
  cases s.moves <;> rfl

theorem State.moveAt_of_drop {s t : State} {k : Nat} (hm : t.moves = s.moves.drop k) (hc : t.moveCount = s.moveCount + k)
    (j : Nat) (log : List Byte) : t.moveAt j log = s.moveAt (k + j) log := by
  unfold State.moveAt
  rw [hm, hc, List.getD_eq_getElem?_getD, List.getD_eq_getElem?_getD, List.getElem?_drop, Nat.add_assoc]

/-- Moves within the script do not depend on what is transmitted. -/
theorem State.flatMap_moveAt_scripted (s : State) (n : Nat) (log : Nat → List Byte) (h : n ≤ s.moves.length) :
    ((List.range n).flatMap fun j => (s.moveAt j (log j)).bytes) = (s.moves.take n).flatMap Move.bytes := by
  induction n with
  | zero => simp
  | succ n ih =>
    have hn : n < s.moves.length := by omega
    have hat : s.moveAt n (log n) = s.moves[n] := by
      unfold State.moveAt
      rw [List.getD_eq_getElem?_getD, List.getElem?_eq_getElem hn, Option.getD_some]
    rw [List.range_succ, List.flatMap_append, ih (by omega), List.take_add_one, List.flatMap_append,
      List.getElem?_eq_getElem hn]
    simp [hat]

/-! ### Transmission -/

/-- What the transmit phase may write (R116): the transmit log, `TXI`, and the environment's part. -/
theorem State.transmitBytes_eq (n : Nat) (s : State) :
    State.transmitBytes n s =
      { s with
        txlog := (State.transmitBytes n s).txlog
        txi := (State.transmitBytes n s).txi
        clock := (State.transmitBytes n s).clock
        rxq := (State.transmitBytes n s).rxq
        moves := (State.transmitBytes n s).moves
        moveCount := (State.transmitBytes n s).moveCount } := by
  induction n generalizing s with
  | zero => rfl
  | succ n ih =>
    show State.transmitBytes n s.transmitByte = _
    rw [ih]; rfl

theorem State.transmitBytes_memRead (n : Nat) (s : State) (sp : Space) (a : Nat) :
    (State.transmitBytes n s).memRead sp a = s.memRead sp a := by
  rw [State.transmitBytes_eq]; cases sp <;> rfl

theorem State.transmitBytes_moves (n : Nat) (s : State) : (State.transmitBytes n s).moves = s.moves.drop n := by
  induction n generalizing s with
  | zero => rfl
  | succ n ih =>
    show (State.transmitBytes n s.transmitByte).moves = _
    rw [ih]
    show s.moves.tail.drop n = _
    simp

theorem State.transmitBytes_moveCount (n : Nat) (s : State) :
    (State.transmitBytes n s).moveCount = s.moveCount + n := by
  induction n generalizing s with
  | zero => rfl
  | succ n ih =>
    show (State.transmitBytes n s.transmitByte).moveCount = _
    rw [ih]
    show s.moveCount + 1 + n = _
    omega

theorem State.transmitBytes_prefix (n : Nat) (s : State) : s.txlog <+: (State.transmitBytes n s).txlog := by
  induction n generalizing s with
  | zero => exact List.prefix_refl _
  | succ n ih => exact (List.prefix_append s.txlog [s.memRead .txbuf s.txi.toNat]).trans (ih s.transmitByte)

/-- What arrives during the transmit phase joins `RXQ` in order, the `j`-th of its moves following the transmission of
one more byte (R47, R116). -/
theorem State.transmitBytes_arrived (n : Nat) (s : State) :
    (State.transmitBytes n s).rxq = s.rxq ++ (List.range n).flatMap fun j =>
      (s.moveAt j ((State.transmitBytes n s).txlog.take (s.txlog.length + j + 1))).bytes := by
  induction n generalizing s with
  | zero => simp [State.transmitBytes]
  | succ n ih =>
    have hlen : s.transmitByte.txlog.length = s.txlog.length + 1 := List.length_append
    obtain ⟨l, hl⟩ := State.transmitBytes_prefix n s.transmitByte
    have hfirst : (State.transmitBytes (n + 1) s).txlog.take (s.txlog.length + 0 + 1) = s.transmitByte.txlog := by
      show (State.transmitBytes n s.transmitByte).txlog.take _ = _
      rw [← hl, List.take_left' (by rw [hlen])]
    rw [List.range_succ_eq_map, List.flatMap_cons, hfirst, List.flatMap_map, ← List.append_assoc]
    show (State.transmitBytes n s.transmitByte).rxq = _
    rw [ih, hlen]
    have hmv : ∀ j log, s.transmitByte.moveAt j log = s.moveAt (j + 1) log := fun j log =>
      State.moveAt_of_tail rfl rfl j log
    have hrxq : s.transmitByte.rxq = s.rxq ++ (s.moveAt 0 s.transmitByte.txlog).bytes :=
      congrArg (s.rxq ++ Move.bytes ·)
        (State.nextMove_eq_moveAt { s.streamWrite (s.memRead .txbuf s.txi.toNat) with txi := s.txi + 1 })
    rw [hrxq]
    simp only [hmv, Nat.succ_eq_add_one]
    congr 2
    funext j
    rw [show s.txlog.length + 1 + j + 1 = s.txlog.length + (j + 1) + 1 by omega]
    rfl

theorem State.transmitBytes_txi (n : Nat) (s : State) : (State.transmitBytes n s).txi = s.txi + BitVec.ofNat 8 n := by
  induction n generalizing s with
  | zero => simp [State.transmitBytes]
  | succ n ih =>
    show (State.transmitBytes n s.transmitByte).txi = _
    rw [ih]
    show s.txi + 1 + BitVec.ofNat 8 n = _
    rw [BitVec.add_assoc]
    congr 1
    apply BitVec.eq_of_toNat_eq
    simp [Nat.add_comm]

/-- Exactly the bytes from offset `TXI` on are handed to the stream, in offset order (R116). -/
theorem State.transmitBytes_txlog (n : Nat) (s : State) (h : s.txi.toNat + n < 256) :
    (State.transmitBytes n s).txlog = s.txlog ++ (List.range n).map fun k => s.memRead .txbuf (s.txi.toNat + k) := by
  induction n generalizing s with
  | zero => simp [State.transmitBytes]
  | succ n ih =>
    have htxi : s.transmitByte.txi.toNat = s.txi.toNat + 1 := by
      show (s.txi + 1).toNat = _
      simp; omega
    show (State.transmitBytes n s.transmitByte).txlog = _
    rw [ih _ (by omega), htxi]
    have hlog : s.transmitByte.txlog = s.txlog ++ [s.memRead .txbuf s.txi.toNat] := rfl
    have hread : ∀ a, s.transmitByte.memRead .txbuf a = s.memRead .txbuf a := fun a => rfl
    rw [hlog, List.range_succ_eq_map]
    simp only [hread, List.map_cons, List.map_map, Nat.add_zero, List.append_assoc, List.singleton_append]
    congr 3
    funext k
    simp only [Function.comp, Nat.succ_eq_add_one]
    congr 1
    omega

/-- The environment's part of the transmit phase, by the script (R116, R117). -/
theorem State.transmitBytes_scripted (n : Nat) (s : State) (h : n ≤ s.moves.length) :
    (State.transmitBytes n s).rxq = s.arrivals n ∧
      (State.transmitBytes n s).clock = s.clock + BitVec.ofNat 32 (s.advances n) := by
  induction n generalizing s with
  | zero => simp [State.transmitBytes, State.arrivals, State.advances]
  | succ n ih =>
    have hpos : 0 < s.moves.length := by omega
    have hlen : n ≤ s.transmitByte.moves.length := by
      show n ≤ s.moves.tail.length
      simp; omega
    obtain ⟨hr, hc⟩ := ih _ hlen
    have ha : s.transmitByte.arrivals n = s.arrivals (n + 1) := by
      rw [← State.environmentMove_arrivals s n hpos]
      cases hm : s.moves with
      | nil => simp [hm] at hpos
      | cons m ms => simp [State.arrivals, State.transmitByte, State.yield, State.nextMove, hm]
    have hadv : s.transmitByte.advances n = s.environmentMove.advances n := rfl
    have hclk : s.transmitByte.clock = s.clock + s.nextMove.advance := by
      cases hm : s.moves with
      | nil => simp [hm] at hpos
      | cons m ms => simp [State.transmitByte, State.yield, State.nextMove, hm]
    refine ⟨by show (State.transmitBytes n s.transmitByte).rxq = _; rw [hr, ha], ?_⟩
    show (State.transmitBytes n s.transmitByte).clock = _
    rw [hc, hclk, hadv, ← State.environmentMove_advances s n hpos, BitVec.add_assoc]
    congr 1
    apply BitVec.eq_of_toNat_eq
    simp

/-! ### The frame -/

theorem FrameCrcOk_bytes (s : State) (n : Nat) (hn : 2 ≤ n) :
    FrameCrcOk (s.bytes .txbuf n) ↔
      crc16 (s.bytes .txbuf (n - 2)) = u16le (s.memRead .txbuf (n - 2)) (s.memRead .txbuf (n - 1)) := by
  unfold FrameCrcOk
  rw [State.bytes_length, State.bytes_take _ _ _ _ (by omega)]
  simp only [List.getD_eq_getElem?_getD, State.bytes_getElem?]
  rw [if_pos (by omega), if_pos (by omega)]
  rfl

/-- What the CRC phase leaves (R114), the CRC unit's registers apart. -/
theorem State.frameCrc_eq (s : State) :
    ∃ i, s.frameCrc = { s with phase := .crc, crchi := s.frameCrc.crchi, crclo := s.frameCrc.crclo, idx := i } := by
  obtain ⟨i, hi⟩ := (s.setPhase .crc).crcUnit_eq (s.txlen.toNat - 2)
  refine ⟨i, ?_⟩
  have h : s.frameCrc = _ := hi
  rw [h]; rfl

@[simp] theorem State.frameCrc_memRead (s : State) (sp : Space) (a : Nat) :
    s.frameCrc.memRead sp a = s.memRead sp a := by
  rw [State.frameCrc, State.crcUnit_memRead, State.setPhase_memRead]

theorem State.frameCrc_result (s : State) : s.frameCrc.crcResult = crc16 (s.bytes .txbuf (s.txlen.toNat - 2)) := by
  rw [State.frameCrc, State.crcUnit_result]
  exact congrArg crc16 (State.bytes_congr fun a _ => State.setPhase_memRead s .crc .txbuf a)

/-- What inserting the CRC leaves (R115), `TXBUF` apart. -/
theorem State.appendCrc_eq (s : State) : s.appendCrc = { s with phase := .append, txbuf := s.appendCrc.txbuf } := by
  unfold State.appendCrc State.txWrite
  split_ifs <;> rfl

theorem State.appendCrc_memRead (s : State) (sp : Space) (a : Nat) (h4 : 4 ≤ s.txlen.toNat) (h24 : s.txlen.toNat ≤ 24) :
    s.appendCrc.memRead sp a =
      if sp = .txbuf ∧ a + 1 = s.txlen.toNat then s.crchi
      else if sp = .txbuf ∧ a + 2 = s.txlen.toNat then s.crclo
      else s.memRead sp a := by
  unfold State.appendCrc
  rw [State.txWrite_memRead, State.txWrite_memRead, State.setPhase_memRead]
  simp only [State.crcResult, crcValue_extract_hi, crcValue_extract_lo, bufCap]
  have e1 : (sp = .txbuf ∧ a = s.txlen.toNat - 1 ∧ s.txlen.toNat - 1 < 24) ↔ sp = .txbuf ∧ a + 1 = s.txlen.toNat :=
    and_congr_right fun _ => by omega
  have e2 : (sp = .txbuf ∧ a = s.txlen.toNat - 2 ∧ s.txlen.toNat - 2 < 24) ↔ sp = .txbuf ∧ a + 2 = s.txlen.toNat :=
    and_congr_right fun _ => by omega
  rw [if_congr e1 rfl (if_congr e2 rfl rfl)]

theorem State.putAddress_eq (s : State) : s.putAddress = { s with txbuf := s.putAddress.txbuf } := by
  unfold State.putAddress State.txWrite
  split_ifs <;> rfl

theorem State.putAddress_memRead (s : State) (sp : Space) (a : Nat) :
    s.putAddress.memRead sp a = if sp = .txbuf ∧ a = 0 then s.addressByte else s.memRead sp a := by
  rw [State.putAddress, State.txWrite_memRead]
  exact if_congr (by simp [bufCap]) rfl rfl

/-- All that completing the frame writes (R111 to R115). -/
theorem State.completeFrame_eq (s : State) (cl rl : Nat) :
    ∃ i, s.completeFrame cl rl =
      { s with
        txlen := BitVec.ofNat 8 cl
        rxlen := BitVec.ofNat 8 rl
        phase := .append
        crchi := (s.completeFrame cl rl).crchi
        crclo := (s.completeFrame cl rl).crclo
        idx := i
        txbuf := (s.completeFrame cl rl).txbuf } := by
  obtain ⟨m, h0⟩ : ∃ m, (s.enter cl rl).putAddress = { s.enter cl rl with txbuf := m } := ⟨_, State.putAddress_eq _⟩
  obtain ⟨ch, cl', i, h1⟩ : ∃ ch cl' i, (s.enter cl rl).putAddress.frameCrc =
      { (s.enter cl rl).putAddress with phase := .crc, crchi := ch, crclo := cl', idx := i } := ⟨_, _, State.frameCrc_eq _⟩
  obtain ⟨m', h2⟩ : ∃ m', (s.enter cl rl).putAddress.frameCrc.appendCrc =
      { (s.enter cl rl).putAddress.frameCrc with phase := .append, txbuf := m' } := ⟨_, State.appendCrc_eq _⟩
  refine ⟨i, ?_⟩
  unfold State.completeFrame
  rw [h2, h1, h0]
  rfl

/-- The completed frame (R113 to R115), byte by byte, and its CRC. -/
theorem State.completeFrame_frame (s : State) (cl rl : Nat) (h4 : 4 ≤ cl) (h24 : cl ≤ 24) :
    (∀ sp a, (s.completeFrame cl rl).memRead sp a =
      if sp = .txbuf ∧ a + 1 = cl then (s.completeFrame cl rl).crchi
      else if sp = .txbuf ∧ a + 2 = cl then (s.completeFrame cl rl).crclo
      else if sp = .txbuf ∧ a = 0 then s.addressByte
      else s.memRead sp a) ∧
    (s.completeFrame cl rl).crcResult = crc16 ((s.completeFrame cl rl).bytes .txbuf (cl - 2)) := by
  obtain ⟨i, hi⟩ := (s.enter cl rl).putAddress.frameCrc_eq
  have ha := (s.enter cl rl).putAddress.frameCrc.appendCrc_eq
  have hlen : (s.enter cl rl).putAddress.txlen.toNat = cl := by
    rw [State.putAddress, State.txWrite_txlen, State.enter_txlen]; simp; omega
  have hlen' : (s.enter cl rl).putAddress.frameCrc.txlen.toNat = cl := by rw [hi]; exact hlen
  have hread := fun sp a => (s.enter cl rl).putAddress.frameCrc.appendCrc_memRead sp a (by omega) (by omega)
  have hput := fun sp a => (s.enter cl rl).putAddress_memRead sp a
  have hres := (s.enter cl rl).putAddress.frameCrc_result
  have haddr : (s.enter cl rl).addressByte = s.addressByte := rfl
  simp only [State.frameCrc_memRead, hput, State.enter_memRead, hlen', haddr] at hread
  have h1 : (s.completeFrame cl rl).crchi = (s.enter cl rl).putAddress.frameCrc.crchi := by
    unfold State.completeFrame; rw [ha]
  have h2 : (s.completeFrame cl rl).crclo = (s.enter cl rl).putAddress.frameCrc.crclo := by
    unfold State.completeFrame; rw [ha]
  refine ⟨fun sp a => by rw [h1, h2]; exact hread sp a, ?_⟩
  have h3 : (s.completeFrame cl rl).crcResult = (s.enter cl rl).putAddress.frameCrc.crcResult := by
    unfold State.crcResult; rw [h1, h2]
  rw [h3, hres, hlen]
  refine congrArg crc16 (State.bytes_congr fun a h => ?_).symm
  show (s.enter cl rl).putAddress.frameCrc.appendCrc.memRead .txbuf a = _
  rw [hread, hput, if_neg (by omega), if_neg (by omega), haddr, State.enter_memRead]

/-- All that the transmit phase writes (R116). -/
theorem State.transmit_eq (s : State) :
    s.transmit =
      { s with
        phase := .tx
        txlog := s.transmit.txlog
        txi := s.transmit.txi
        clock := s.transmit.clock
        rxq := s.transmit.rxq
        moves := s.transmit.moves
        moveCount := s.transmit.moveCount } :=
  State.transmitBytes_eq _ _

@[simp] theorem State.transmit_memRead (s : State) (sp : Space) (a : Nat) : s.transmit.memRead sp a = s.memRead sp a := by
  rw [State.transmit_eq]; cases sp <;> rfl

/-- The transmit phase hands `TXBUF[0, TXLEN)` to the stream and takes `TXLEN` moves (R116). -/
theorem State.transmit_sent (s : State) :
    s.transmit.txlog = s.txlog ++ s.bytes .txbuf s.txlen.toNat ∧ s.transmit.txi = s.txlen ∧
      s.transmit.moves = s.moves.drop s.txlen.toNat := by
  have h := s.txlen.isLt
  refine ⟨?_, ?_, State.transmitBytes_moves _ _⟩
  · rw [State.transmit, State.transmitBytes_txlog _ _ (by show 0 + s.txlen.toNat < 256; omega)]
    refine congrArg₂ _ rfl (List.map_congr_left fun a _ => ?_)
    show s.memRead .txbuf (0 + a) = _
    rw [Nat.zero_add]
  · rw [State.transmit, State.transmitBytes_txi]
    show (0 : Byte) + BitVec.ofNat 8 s.txlen.toNat = s.txlen
    simp

theorem State.transmit_scripted (s : State) (h : s.txlen.toNat ≤ s.moves.length) :
    s.transmit.rxq = s.arrivals s.txlen.toNat ∧
      s.transmit.clock = s.clock + BitVec.ofNat 32 (s.advances s.txlen.toNat) :=
  State.transmitBytes_scripted s.txlen.toNat { s with phase := .tx, txi := 0 } h

/-- All that sending a frame writes (R112, R131): the state in which the receive loop begins. -/
theorem State.sendFrame_eq (s : State) (cl rl : Nat) :
    ∃ i, s.sendFrame cl rl =
      { s with
        txlen := BitVec.ofNat 8 cl
        rxlen := BitVec.ofNat 8 rl
        phase := .rx
        crchi := (s.sendFrame cl rl).crchi
        crclo := (s.sendFrame cl rl).crclo
        idx := i
        txbuf := (s.sendFrame cl rl).txbuf
        txlog := (s.sendFrame cl rl).txlog
        txi := (s.sendFrame cl rl).txi
        rxn := 0
        tstart := (s.sendFrame cl rl).clock
        clock := (s.sendFrame cl rl).clock
        rxq := (s.sendFrame cl rl).rxq
        moves := (s.sendFrame cl rl).moves
        moveCount := (s.sendFrame cl rl).moveCount
        drifts := s.drifts.tail
        driftCount := s.driftCount + 1 } := by
  obtain ⟨i, hi⟩ := s.completeFrame_eq cl rl
  refine ⟨i, ?_⟩
  obtain ⟨ch, cl', m, h0⟩ : ∃ ch cl' m, s.completeFrame cl rl =
      { s with
        txlen := BitVec.ofNat 8 cl, rxlen := BitVec.ofNat 8 rl, phase := .append
        crchi := ch, crclo := cl', idx := i, txbuf := m } := ⟨_, _, _, hi⟩
  obtain ⟨lg, ti, ck, q, mv, mc, h1⟩ : ∃ lg ti ck q mv mc, (s.completeFrame cl rl).transmit =
      { s.completeFrame cl rl with
        phase := .tx, txlog := lg, txi := ti, clock := ck, rxq := q, moves := mv, moveCount := mc } :=
    ⟨_, _, _, _, _, _, State.transmit_eq _⟩
  unfold State.sendFrame
  rw [h1, h0]
  rfl

/-- What sending a frame does, whatever the environment (R113 to R118). -/
theorem State.sendFrame_sent (s : State) (cl rl : Nat) (h4 : 4 ≤ cl) (h24 : cl ≤ 24) :
    FrameSent s (s.sendFrame cl rl) cl (fun a => s.memRead .txbuf a) := by
  obtain ⟨i, hi⟩ := s.completeFrame_eq cl rl
  obtain ⟨hm, hcrc⟩ := s.completeFrame_frame cl rl h4 h24
  obtain ⟨hlog, -, -⟩ := (s.completeFrame cl rl).transmit_sent
  have ht := (s.completeFrame cl rl).transmit_eq
  have hread : ∀ sp a, (s.sendFrame cl rl).memRead sp a = (s.completeFrame cl rl).memRead sp a := by
    intro sp a
    rw [State.sendFrame, State.startReceive_memRead, State.transmit_memRead]
  have htxlen : (s.completeFrame cl rl).txlen.toNat = cl := by rw [hi]; simp; omega
  have hbytes : ∀ n, (s.sendFrame cl rl).bytes .txbuf n = (s.completeFrame cl rl).bytes .txbuf n :=
    fun n => State.bytes_congr fun a _ => hread .txbuf a
  have hacc : (s.sendFrame cl rl).crcResult = (s.completeFrame cl rl).crcResult := by
    unfold State.crcResult State.sendFrame
    rw [State.startReceive_crchi, State.startReceive_crclo, ht]
  have hold : (s.completeFrame cl rl).txlog = s.txlog := by rw [hi]
  constructor
  · rw [hbytes, State.sendFrame, State.startReceive_txlog, hlog, htxlen, hold]
  · rw [hread, hm, if_neg (by omega), if_neg (by omega), if_pos ⟨rfl, rfl⟩]
  · intro a h1 h2
    rw [hread, hm, if_neg (by omega), if_neg (by omega), if_neg (by omega)]
  · rw [FrameCrcOk_bytes _ _ (by omega), hbytes, ← hcrc, hread, hread, hm, hm, if_neg (by omega),
      if_pos ⟨rfl, by omega⟩, if_pos ⟨rfl, by omega⟩]
    rfl
  · intro a ha
    rw [hread, hm, if_neg (by omega), if_neg (by omega), if_neg (by omega)]
  · rw [hacc, hbytes, hcrc]
  · rw [State.sendFrame, State.startReceive_txlen, ht]; exact htxlen

/-- `TXI` after a frame was sent (R24, R116, log 9). -/
theorem State.sendFrame_txi (s : State) (cl rl : Nat) : (s.sendFrame cl rl).txi = BitVec.ofNat 8 cl := by
  obtain ⟨i, hi⟩ := s.completeFrame_eq cl rl
  rw [State.sendFrame, State.startReceive_txi, (s.completeFrame cl rl).transmit_sent.2.1, hi]

/-- The environment's part in the transmit phase, in every environment (R47, R116). -/
theorem State.transmit_environment (s : State) :
    s.transmit.moves = s.moves.drop s.txlen.toNat ∧ s.transmit.moveCount = s.moveCount + s.txlen.toNat ∧
      s.transmit.rxq = s.rxq ++ (List.range s.txlen.toNat).flatMap fun j =>
        (s.moveAt j (s.transmit.txlog.take (s.txlog.length + j + 1))).bytes := by
  generalize hu : ({ s with phase := .tx, txi := 0 } : State) = u
  have ht : s.transmit = State.transmitBytes s.txlen.toNat u := by rw [← hu]; rfl
  have hm : u.moves = s.moves := by rw [← hu]
  have hc : u.moveCount = s.moveCount := by rw [← hu]
  have hq : u.rxq = s.rxq := by rw [← hu]
  have hl : u.txlog = s.txlog := by rw [← hu]
  have hat : ∀ j log, u.moveAt j log = s.moveAt j log := fun j log => by unfold State.moveAt; rw [hm, hc]
  rw [ht, State.transmitBytes_moves, State.transmitBytes_moveCount, State.transmitBytes_arrived, hm, hc, hq, hl]
  simp only [hat, true_and]

/-- The environment's part in sending a frame, in every environment (R47, R116). -/
theorem State.sendFrame_environment (s : State) (cl rl : Nat) (h24 : cl ≤ 24) :
    (s.sendFrame cl rl).moves = s.moves.drop cl ∧ (s.sendFrame cl rl).moveCount = s.moveCount + cl ∧
      (s.sendFrame cl rl).rxq = s.rxq ++ (List.range cl).flatMap fun j =>
        (s.moveAt j ((s.sendFrame cl rl).txlog.take (s.txlog.length + j + 1))).bytes := by
  obtain ⟨i, hi⟩ := s.completeFrame_eq cl rl
  have htxlen : (s.completeFrame cl rl).txlen.toNat = cl := by rw [hi]; simp; omega
  have hmv : (s.completeFrame cl rl).moves = s.moves := by rw [hi]
  have hmc : (s.completeFrame cl rl).moveCount = s.moveCount := by rw [hi]
  have hrq : (s.completeFrame cl rl).rxq = s.rxq := by rw [hi]
  have hlg : (s.completeFrame cl rl).txlog = s.txlog := by rw [hi]
  have hat : ∀ j log, (s.completeFrame cl rl).moveAt j log = s.moveAt j log := fun j log => by
    unfold State.moveAt; rw [hmv, hmc]
  have h := (s.completeFrame cl rl).transmit_environment
  simp only [hat, htxlen, hmv, hmc, hrq, hlg] at h
  unfold State.sendFrame
  rw [State.startReceive_moves, State.startReceive_moveCount, State.startReceive_rxq, State.startReceive_txlog]
  exact h

/-- The environment's part in sending a frame, by the script (R47, R49, R116 to R118). -/
theorem State.sendFrame_scripted (s : State) (cl rl : Nat) (h24 : cl ≤ 24) (hm : cl ≤ s.moves.length)
    (hd : 0 < s.drifts.length) :
    (s.sendFrame cl rl).rxq = s.arrivals cl ∧ (s.sendFrame cl rl).moves = s.moves.drop cl ∧
      (s.sendFrame cl rl).clock = s.clock + BitVec.ofNat 32 (s.advances cl) + s.drifts.headD 0 := by
  obtain ⟨i, hi⟩ := s.completeFrame_eq cl rl
  have htxlen : (s.completeFrame cl rl).txlen.toNat = cl := by rw [hi]; simp; omega
  have hmv : (s.completeFrame cl rl).moves = s.moves := by rw [hi]
  have hrq : (s.completeFrame cl rl).rxq = s.rxq := by rw [hi]
  have hck : (s.completeFrame cl rl).clock = s.clock := by rw [hi]
  have hdr : (s.completeFrame cl rl).drifts = s.drifts := by rw [hi]
  obtain ⟨hr, hc⟩ := (s.completeFrame cl rl).transmit_scripted (by rw [htxlen, hmv]; exact hm)
  obtain ⟨-, -, hmoves⟩ := (s.completeFrame cl rl).transmit_sent
  have ht := (s.completeFrame cl rl).transmit_eq
  have hdrift : (s.completeFrame cl rl).transmit.nextDrift = s.drifts.headD 0 := by
    have : (s.completeFrame cl rl).transmit.drifts = s.drifts := by rw [ht]; exact hdr
    unfold State.nextDrift
    rw [this]
    cases hs : s.drifts with
    | nil => simp [hs] at hd
    | cons d ds => rfl
  unfold State.sendFrame
  rw [State.startReceive_rxq, State.startReceive_moves, State.startReceive_clock, hr, hc, hmoves, hdrift, htxlen, hmv, hck]
  unfold State.arrivals State.advances
  rw [hrq, hmv]
  exact ⟨rfl, rfl, rfl⟩

end Sys2Proof.Machine
end

