-- ==== Sys2Proof/Laws/Receive.lean ====
section
/-! SUPPORT. The receive loop (spec/41_request.md R119 to R130): what it may write, what each of its three ends means,
which bytes it collects, and how it ends in an environment that answers in time and in one that does not. -/

namespace Sys2Proof.Machine

/-! ### One poll -/

/-- All that a poll writes (R121). -/
theorem State.poll_eq (s : State) :
    ∃ m q r, s.poll = { s with respbuf := m, rxq := q, rxn := r } := by
  unfold State.poll State.respWrite
  split
  · exact ⟨_, _, _, rfl⟩
  · split
    · exact ⟨_, _, _, rfl⟩
    · exact ⟨_, _, _, rfl⟩

theorem State.poll_nil {s : State} (h : s.rxq = []) : s.poll = s := by
  unfold State.poll; rw [h]

theorem State.poll_cons {s : State} {b : Byte} {q : List Byte} (h : s.rxq = b :: q) :
    s.poll = { s.respWrite s.rxn.toNat b with rxq := q, rxn := s.rxn + 1 } := by
  unfold State.poll; rw [h]

theorem State.poll_wf (s : State) (h : Memory.wf s.respbuf) : Memory.wf s.poll.respbuf := by
  unfold State.poll
  split
  · exact h
  · exact State.respWrite_wf s _ _ h

/-- One iteration's poll and yield, after its sample (R120 to R122). -/
def State.iterate (s : State) : State := s.sample.poll.yield

theorem State.iterate_eq (s : State) :
    ∃ m q r, s.iterate =
      { s with
        respbuf := m, rxq := q, rxn := r
        clock := s.iterate.clock
        drifts := s.drifts.tail
        driftCount := s.driftCount + 1
        moves := s.moves.tail
        moveCount := s.moveCount + 1 } := by
  obtain ⟨m, q, r, h⟩ := s.sample.poll_eq
  refine ⟨m, q ++ s.sample.poll.nextMove.bytes, r, ?_⟩
  unfold State.iterate State.yield
  rw [h]
  rfl

/-! ### The loop in every environment -/

/-- All that the receive loop writes (R131). -/
theorem State.receiveLoop_eq (n : Nat) (s : State) :
    ∃ m r c q mv mc d dc, (State.receiveLoop n s).2 =
      { s with
        respbuf := m, rxn := r, clock := c, rxq := q, moves := mv, moveCount := mc, drifts := d, driftCount := dc } := by
  induction n generalizing s with
  | zero => unfold State.receiveLoop; split <;> exact ⟨_, _, _, _, _, _, _, _, rfl⟩
  | succ n ih =>
    unfold State.receiveLoop
    split
    · split
      · exact ⟨_, _, _, _, _, _, _, _, rfl⟩
      · obtain ⟨m, r, c, q, mv, mc, d, dc, h⟩ := ih s.iterate
        obtain ⟨m', q', r', h'⟩ := s.iterate_eq
        refine ⟨m, r, c, q, mv, mc, d, dc, ?_⟩
        show (State.receiveLoop n s.iterate).2 = _
        rw [h, h']
    · exact ⟨_, _, _, _, _, _, _, _, rfl⟩

/-- What each end of the loop means (R119, R120, R123, R126, R261). -/
theorem State.receiveLoop_end (n : Nat) (s : State) :
    match State.receiveLoop n s with
    | (.success, t) => ¬ t.rxn < t.rxlen
    | (.timeout, t) => t.rxn < t.rxlen ∧ t.deadlinePassed = true
    | (.waiting, t) => t.rxn < t.rxlen := by
  induction n generalizing s with
  | zero =>
    unfold State.receiveLoop
    by_cases h : s.rxn < s.rxlen
    · rw [if_pos h]; exact h
    · rw [if_neg h]; exact h
  | succ n ih =>
    unfold State.receiveLoop
    by_cases h : s.rxn < s.rxlen
    · rw [if_pos h]
      by_cases hd : s.sample.deadlinePassed = true
      · rw [if_pos hd]; exact ⟨h, hd⟩
      · rw [if_neg hd]; exact ih s.iterate
    · rw [if_neg h]; exact h

theorem State.receiveLoop_wf (n : Nat) (s : State) (h : Memory.wf s.respbuf) :
    Memory.wf (State.receiveLoop n s).2.respbuf := by
  induction n generalizing s with
  | zero => unfold State.receiveLoop; split <;> exact h
  | succ n ih =>
    unfold State.receiveLoop
    split
    · split
      · exact h
      · exact ih s.iterate (State.poll_wf s.sample h)
    · exact h

theorem State.iterate_moveAt (s : State) (j : Nat) (log : List Byte) : s.iterate.moveAt j log = s.moveAt (j + 1) log := by
  obtain ⟨m, q, r, h⟩ := s.iterate_eq
  exact State.moveAt_of_tail (by rw [h]) (by rw [h]) j log

theorem State.iterate_txlog (s : State) : s.iterate.txlog = s.txlog := by
  obtain ⟨m, q, r, h⟩ := s.iterate_eq; rw [h]

theorem State.sample_poll_nextMove_eq (s : State) : s.sample.poll.nextMove = s.moveAt 0 s.txlog := by
  obtain ⟨m, q, r, h⟩ := s.sample.poll_eq
  rw [State.nextMove_eq_moveAt, h]; rfl

/-- Which bytes the loop collects (R121, R123, R124): after `j` iterations' moves the bytes that were waiting or have
arrived are `s.rxq ++ l`; the first `k` of them are in `RESPBUF` from offset `RXN` on, the rest are still in `RXQ`, and
no other byte of `RESPBUF` has changed. -/
theorem State.receiveLoop_collects (n : Nat) (s : State) (hl : s.rxlen.toNat ≤ 24) (hr : s.rxn ≤ s.rxlen) :
    ∃ j l k, (State.receiveLoop n s).2.moves = s.moves.drop j ∧
      (State.receiveLoop n s).2.moveCount = s.moveCount + j ∧
      (l = (List.range j).flatMap fun i => (s.moveAt i s.txlog).bytes) ∧
      (State.receiveLoop n s).2.rxn.toNat = s.rxn.toNat + k ∧ s.rxn.toNat + k ≤ s.rxlen.toNat ∧
      (State.receiveLoop n s).2.rxq = (s.rxq ++ l).drop k ∧ k ≤ (s.rxq ++ l).length ∧
      (∀ a, a < k → some ((State.receiveLoop n s).2.memRead .respbuf (s.rxn.toNat + a)) = (s.rxq ++ l)[a]?) ∧
      ∀ a, a < s.rxn.toNat ∨ s.rxn.toNat + k ≤ a →
        (State.receiveLoop n s).2.memRead .respbuf a = s.memRead .respbuf a := by
  have hr' : s.rxn.toNat ≤ s.rxlen.toNat := hr
  induction n generalizing s with
  | zero =>
    have h2 : (State.receiveLoop 0 s).2 = s := by unfold State.receiveLoop; split <;> rfl
    rw [h2]
    exact ⟨0, [], 0, by simp, by simp, by simp, by simp, by omega, by simp, by simp, by simp, by simp⟩
  | succ n ih =>
    unfold State.receiveLoop
    by_cases h : s.rxn < s.rxlen
    · rw [if_pos h]
      have h' : s.rxn.toNat < s.rxlen.toNat := h
      by_cases hd : s.sample.deadlinePassed = true
      · rw [if_pos hd]
        refine ⟨0, [], 0, by simp, by simp, by simp, by simp, by omega, by simp, by simp, by simp, fun a _ => ?_⟩
        exact State.sample_memRead s .respbuf a
      · rw [if_neg hd]
        rw [show s.sample.poll.yield = s.iterate from rfl]
        have hlen : s.iterate.rxlen = s.rxlen := by obtain ⟨m, q, r, hi⟩ := s.iterate_eq; rw [hi]
        have hmv : s.iterate.moves = s.moves.tail := by obtain ⟨m, q, r, hi⟩ := s.iterate_eq; rw [hi]
        have hmc : s.iterate.moveCount = s.moveCount + 1 := by obtain ⟨m, q, r, hi⟩ := s.iterate_eq; rw [hi]
        have hflat : ∀ j, s.sample.poll.nextMove.bytes ++
            ((List.range j).flatMap fun i => (s.iterate.moveAt i s.iterate.txlog).bytes) =
              (List.range (j + 1)).flatMap fun i => (s.moveAt i s.txlog).bytes := by
          intro j
          simp only [State.iterate_moveAt, State.iterate_txlog]
          rw [List.range_succ_eq_map, List.flatMap_cons, List.flatMap_map, State.sample_poll_nextMove_eq]
        cases hq : s.rxq with
        | nil =>
          have hp : s.sample.poll = s.sample := State.poll_nil hq
          have hrxn : s.iterate.rxn = s.rxn := by unfold State.iterate; rw [hp]; rfl
          have hrxq : s.iterate.rxq = s.sample.poll.nextMove.bytes := by
            show s.sample.poll.rxq ++ _ = _
            have : s.sample.poll.rxq = [] := by rw [hp]; exact hq
            rw [this, List.nil_append]
          have hread : ∀ a, s.iterate.memRead .respbuf a = s.memRead .respbuf a := by
            intro a; unfold State.iterate; rw [hp]; rfl
          obtain ⟨j, l, k, e1, ec, e2, e3, e4, e5, e6, e7, e8⟩ := ih s.iterate (by rw [hlen]; exact hl)
            (by rw [hlen, hrxn]; exact hr) (by rw [hlen, hrxn]; exact hr')
          rw [hrxn] at e3 e4 e7 e8
          rw [hlen] at e4
          rw [hrxq] at e5 e6 e7
          refine ⟨j + 1, s.sample.poll.nextMove.bytes ++ l, k, ?_, by omega, ?_, e3, e4, e5, e6, e7, fun a ha => ?_⟩
          · rw [e1, hmv]; simp
          · rw [e2, hflat j]
          · rw [e8 a ha, hread]
        | cons b q =>
          have hp : s.sample.poll = { s.sample.respWrite s.rxn.toNat b with rxq := q, rxn := s.rxn + 1 } :=
            State.poll_cons hq
          have hrxn : s.iterate.rxn = s.rxn + 1 := by unfold State.iterate; rw [hp]; rfl
          have hrxn' : s.iterate.rxn.toNat = s.rxn.toNat + 1 := by rw [hrxn]; simp; omega
          have hrxq : s.iterate.rxq = q ++ s.sample.poll.nextMove.bytes := by
            show s.sample.poll.rxq ++ _ = _
            rw [show s.sample.poll.rxq = q by rw [hp]]
          have hread : ∀ a, s.iterate.memRead .respbuf a = if a = s.rxn.toNat then b else s.memRead .respbuf a := by
            intro a
            have : s.iterate.memRead .respbuf a = (s.sample.respWrite s.rxn.toNat b).memRead .respbuf a := by
              unfold State.iterate; rw [hp]; rfl
            rw [this, State.respWrite_memRead, State.sample_memRead]
            exact if_congr (by simp [bufCap]; omega) rfl rfl
          obtain ⟨j, l, k, e1, ec, e2, e3, e4, e5, e6, e7, e8⟩ := ih s.iterate (by rw [hlen]; exact hl)
            (by rw [hlen]; show s.iterate.rxn.toNat ≤ _; omega) (by rw [hlen]; omega)
          rw [hrxn'] at e3 e4 e7 e8
          rw [hlen] at e4
          rw [hrxq] at e5 e6 e7
          have hcat : (b :: q) ++ (s.sample.poll.nextMove.bytes ++ l) = b :: (q ++ s.sample.poll.nextMove.bytes ++ l) := by
            simp
          refine ⟨j + 1, s.sample.poll.nextMove.bytes ++ l, k + 1, ?_, by omega, ?_, by omega, by omega, ?_, ?_,
            fun a ha => ?_, fun a ha => ?_⟩
          · rw [e1, hmv]; simp
          · rw [e2, hflat j]
          · rw [hcat, List.drop_succ_cons]; exact e5
          · rw [hcat, List.length_cons]; omega
          · rw [hcat]
            cases a with
            | zero =>
              rw [e8 _ (by omega), hread, if_pos (by omega)]; rfl
            | succ a =>
              have := e7 a (by omega)
              rw [List.getElem?_cons_succ, ← this]
              congr 2
              omega
          · rw [e8 a (by omega), hread, if_neg (by omega)]
    · rw [if_neg h]
      exact ⟨0, [], 0, by simp, by simp, by simp, by simp, by omega, by simp, by simp, by simp, by simp⟩

end Sys2Proof.Machine
end

