-- ==== Sys2Proof/Laws/Answer.lean ====
section
/-! SUPPORT. How an exchange ends by the environment's script: in success when the answer is there in time, in a
timeout when it is not (spec/41_request.md R119 to R130). -/

namespace Sys2Proof.Machine

/-- Milliseconds gone, unwrapped, between now and the sample of deadline check number `k` from here. -/
def State.waitedFrom (s : State) (k : Nat) : Nat :=
  ((s.moves.take k).map fun m => m.advance.toNat).sum + ((s.drifts.take (k + 1)).map BitVec.toNat).sum

theorem State.iterate_moves (s : State) : s.iterate.moves = s.moves.tail := by
  obtain ⟨m, q, r, h⟩ := s.iterate_eq; rw [h]

theorem State.iterate_drifts (s : State) : s.iterate.drifts = s.drifts.tail := by
  obtain ⟨m, q, r, h⟩ := s.iterate_eq; rw [h]

theorem State.iterate_moveCount (s : State) : s.iterate.moveCount = s.moveCount + 1 := by
  obtain ⟨m, q, r, h⟩ := s.iterate_eq; rw [h]

theorem State.iterate_rxlen (s : State) : s.iterate.rxlen = s.rxlen := by
  obtain ⟨m, q, r, h⟩ := s.iterate_eq; rw [h]

theorem State.iterate_tstart (s : State) : s.iterate.tstart = s.tstart := by
  obtain ⟨m, q, r, h⟩ := s.iterate_eq; rw [h]

theorem State.iterate_timeout (s : State) : s.iterate.timeout = s.timeout := by
  obtain ⟨m, q, r, h⟩ := s.iterate_eq; rw [h]

theorem State.sample_poll_nextMove {s : State} {m : Move} {ms : List Move} (h : s.moves = m :: ms) :
    s.sample.poll.nextMove = m := by
  obtain ⟨a, q, r, hp⟩ := s.sample.poll_eq
  unfold State.nextMove
  rw [hp]
  show (match s.moves with | m :: _ => m | [] => _) = m
  rw [h]

theorem State.iterate_clock {s : State} {m : Move} {ms : List Move} {d : Time} {ds : List Time} (hm : s.moves = m :: ms)
    (hd : s.drifts = d :: ds) : s.iterate.clock = s.clock + d + m.advance := by
  obtain ⟨a, q, r, hp⟩ := s.sample.poll_eq
  have hn : s.nextDrift = d := by unfold State.nextDrift; rw [hd]
  show s.sample.poll.clock + s.sample.poll.nextMove.advance = _
  rw [State.sample_poll_nextMove hm, hp]
  show s.clock + s.nextDrift + m.advance = _
  rw [hn]

theorem State.waitedFrom_iterate {s : State} {m : Move} {ms : List Move} {d : Time} {ds : List Time}
    (hm : s.moves = m :: ms) (hd : s.drifts = d :: ds) (k : Nat) :
    s.waitedFrom (k + 1) = d.toNat + m.advance.toNat + s.iterate.waitedFrom k := by
  unfold State.waitedFrom
  rw [State.iterate_moves, State.iterate_drifts, hm, hd]
  simp only [List.take_succ_cons, List.map_cons, List.sum_cons, List.tail_cons]
  omega

theorem ofNat_add_time (a b : Nat) (t : Time) (h : t.toNat = b) :
    BitVec.ofNat 32 a + t = BitVec.ofNat 32 (a + b) := by
  subst h
  apply BitVec.eq_of_toNat_eq
  simp

/-- The deadline check on a sample taken `e` milliseconds after `TSTART` (R120). -/
theorem State.deadlinePassed_sample {s : State} {e : Nat} {d : Time} {ds : List Time} (hd : s.drifts = d :: ds)
    (hc : s.clock = s.tstart + BitVec.ofNat 32 e) :
    s.sample.deadlinePassed = decide (s.timeout < BitVec.ofNat 32 (e + d.toNat)) := by
  have hn : s.nextDrift = d := by unfold State.nextDrift; rw [hd]
  unfold State.deadlinePassed
  show decide (s.timeout < s.clock + s.nextDrift - s.tstart) = _
  rw [hn, hc, BitVec.add_assoc, ofNat_add_time e _ d rfl]
  congr 1
  rw [BitVec.add_comm, BitVec.add_sub_cancel]

/-! ### How many bytes the iterations take -/

theorem takenOf_succ_of_zero {f : Nat → Nat} (h : f 0 = 0) (k : Nat) :
    takenOf f (k + 1) = takenOf (fun i => f (i + 1)) k := by
  induction k with
  | zero => simp [takenOf, h]
  | succ k ih => rw [takenOf, ih]; rfl

theorem takenOf_succ_of_pos {f : Nat → Nat} (h : ∀ i, 0 < f i) (k : Nat) :
    takenOf f (k + 1) = takenOf (fun i => f (i + 1) - 1) k + 1 := by
  induction k with
  | zero => simp [takenOf, h]
  | succ k ih =>
    have hk := h (k + 1)
    rw [takenOf, ih, takenOf]
    split_ifs <;> omega

/-- The bytes that `k` iterations from here take, by the script. -/
def State.takenFrom (s : State) (k : Nat) : Nat := takenOf (fun i => (s.arrivals i).length) k

/-- One iteration takes the head of what is waiting, and what its yield brings is waiting after it (R121, R122). -/
theorem State.iterate_takes {s : State} {m : Move} {ms : List Move} (hm : s.moves = m :: ms) :
    (s.rxq = [] ∧ s.iterate.rxn = s.rxn ∧ ∀ i, s.iterate.arrivals i = s.arrivals (i + 1)) ∨
      ∃ b q, s.rxq = b :: q ∧ s.iterate.rxn = s.rxn + 1 ∧ ∀ i, b :: s.iterate.arrivals i = s.arrivals (i + 1) := by
  have hmv : s.iterate.moves = ms := by rw [State.iterate_moves, hm, List.tail_cons]
  have hrq : s.iterate.rxq = s.sample.poll.rxq ++ m.bytes := by
    show s.sample.poll.rxq ++ s.sample.poll.nextMove.bytes = _
    rw [State.sample_poll_nextMove hm]
  unfold State.arrivals
  rw [hmv, hrq, hm]
  cases hq : s.rxq with
  | nil =>
    have hp : s.sample.poll = s.sample := State.poll_nil hq
    have hn : s.iterate.rxn = s.rxn := by unfold State.iterate; rw [hp]; rfl
    refine .inl ⟨rfl, hn, fun i => ?_⟩
    rw [hp, State.sample_rxq, hq, List.take_succ_cons, List.flatMap_cons, List.append_assoc]
  | cons b q =>
    have hp : s.sample.poll = { s.sample.respWrite s.rxn.toNat b with rxq := q, rxn := s.rxn + 1 } := State.poll_cons hq
    have hn : s.iterate.rxn = s.rxn + 1 := by unfold State.iterate; rw [hp]; rfl
    have hq' : s.sample.poll.rxq = q := by rw [hp]
    refine .inr ⟨b, q, rfl, hn, fun i => ?_⟩
    rw [hq', List.take_succ_cons, List.flatMap_cons, List.cons_append, List.append_assoc]

theorem State.takenFrom_iterate {s : State} {m : Move} {ms : List Move} (hm : s.moves = m :: ms)
    (hr : s.rxn.toNat < 255) (k : Nat) :
    s.iterate.rxn.toNat + s.iterate.takenFrom k = s.rxn.toNat + s.takenFrom (k + 1) := by
  unfold State.takenFrom
  rcases State.iterate_takes hm with ⟨hq, hn, ha⟩ | ⟨b, q, hq, hn, ha⟩
  · rw [takenOf_succ_of_zero (by simp [State.arrivals, hq]), hn]
    simp only [ha]
  · have hn' : s.iterate.rxn.toNat = s.rxn.toNat + 1 := by rw [hn]; simp; omega
    have hl : ∀ i, (s.arrivals (i + 1)).length - 1 = (s.iterate.arrivals i).length := fun i => by rw [← ha]; simp
    rw [takenOf_succ_of_pos (fun i => by simp [State.arrivals, hq])]
    simp only [hl]
    omega

/-! ### The loop by the script -/

/-- The deadline check of the iteration that begins here, `e` milliseconds after `TSTART` (R120). -/
theorem State.deadlinePassed_sample_iff {s : State} {e : Nat} (hd : 0 < s.drifts.length)
    (hc : s.clock = s.tstart + BitVec.ofNat 32 e) :
    s.sample.deadlinePassed = true ↔ s.timeout.toNat < (e + s.waitedFrom 0) % 2 ^ 32 := by
  cases hds : s.drifts with
  | nil => simp [hds] at hd
  | cons d ds =>
    have hw : s.waitedFrom 0 = d.toNat := by simp [State.waitedFrom, hds]
    rw [State.deadlinePassed_sample hds hc, hw]
    simp only [decide_eq_true_eq, BitVec.lt_def, BitVec.toNat_ofNat]

/-- What one iteration within the script leaves for the next deadline checks. -/
theorem State.iterate_scripted {s : State} {e : Nat} (hm : 0 < s.moves.length) (hd : 0 < s.drifts.length)
    (hc : s.clock = s.tstart + BitVec.ofNat 32 e) :
    ∃ m ms x, s.moves = m :: ms ∧ s.iterate.moves.length + 1 = s.moves.length ∧
      s.iterate.drifts.length + 1 = s.drifts.length ∧ s.iterate.clock = s.iterate.tstart + BitVec.ofNat 32 x ∧
      ∀ i, x + s.iterate.waitedFrom i = e + s.waitedFrom (i + 1) := by
  cases hms : s.moves with
  | nil => simp [hms] at hm
  | cons m ms =>
  cases hds : s.drifts with
  | nil => simp [hds] at hd
  | cons d ds =>
    refine ⟨m, ms, e + d.toNat + m.advance.toNat, rfl, ?_, ?_, ?_, fun i => ?_⟩
    · rw [State.iterate_moves, hms]; rfl
    · rw [State.iterate_drifts, hds]; rfl
    · rw [State.iterate_clock hms hds, State.iterate_tstart, hc, ← ofNat_add_time _ _ m.advance rfl,
        ← ofNat_add_time _ _ d rfl]
      simp only [BitVec.add_assoc]
    · rw [State.waitedFrom_iterate hms hds i]; omega

/-- Iterations that pass their checks and take all that is missing end in success (R119 to R123). -/
theorem State.receiveLoop_success (j : Nat) : ∀ (n : Nat) (s : State) (e : Nat), s.rxlen.toNat ≤ 24 →
    s.rxn.toNat + s.takenFrom j = s.rxlen.toNat → j ≤ n → j ≤ s.moves.length → j ≤ s.drifts.length →
    s.clock = s.tstart + BitVec.ofNat 32 e → (∀ i, i < j → (e + s.waitedFrom i) % 2 ^ 32 ≤ s.timeout.toNat) →
    (State.receiveLoop n s).1 = .success ∧ ∃ k, k ≤ j ∧ (State.receiveLoop n s).2.moveCount = s.moveCount + k := by
  induction j with
  | zero =>
    intro n s e _ hr _ _ _ _ _
    have hlt : ¬ s.rxn < s.rxlen := fun h => by
      have : s.rxn.toNat < s.rxlen.toNat := h
      have : s.takenFrom 0 = 0 := rfl
      omega
    cases n <;> (unfold State.receiveLoop; rw [if_neg hlt]; exact ⟨rfl, 0, le_refl _, rfl⟩)
  | succ j ih =>
    intro n s e h24 hr hn hm hd hc hw
    obtain ⟨n, rfl⟩ : ∃ n', n = n' + 1 := ⟨n - 1, by omega⟩
    unfold State.receiveLoop
    by_cases hlt : s.rxn < s.rxlen
    · have hlt' : s.rxn.toNat < s.rxlen.toNat := hlt
      have hnp : ¬ s.sample.deadlinePassed = true := by
        rw [State.deadlinePassed_sample_iff (by omega) hc]
        have := hw 0 (by omega)
        omega
      obtain ⟨m, ms, x, hms, hml, hdl, hck, hwait⟩ := State.iterate_scripted (s := s) (by omega) (by omega) hc
      have htaken := State.takenFrom_iterate hms (by omega) j
      rw [if_pos hlt, if_neg hnp, show s.sample.poll.yield = s.iterate from rfl]
      obtain ⟨h1, k, hk, h2⟩ := ih n s.iterate x (by rw [State.iterate_rxlen]; exact h24)
        (by rw [State.iterate_rxlen]; omega) (by omega) (by omega) (by omega) hck
        (fun i hi => by rw [hwait, State.iterate_timeout]; exact hw (i + 1) (by omega))
      rw [State.iterate_moveCount] at h2
      exact ⟨h1, k + 1, by omega, by omega⟩
    · rw [if_neg hlt]
      exact ⟨rfl, 0, by omega, rfl⟩

/-- Iterations that pass their checks, then a check that does not while bytes are missing, end in a timeout (R120,
R126, R129). -/
theorem State.receiveLoop_timeout (j : Nat) : ∀ (n : Nat) (s : State) (e : Nat), s.rxlen.toNat ≤ 24 →
    s.rxn.toNat + s.takenFrom j < s.rxlen.toNat → j < n → j ≤ s.moves.length → j + 1 ≤ s.drifts.length →
    s.clock = s.tstart + BitVec.ofNat 32 e → (∀ i, i < j → (e + s.waitedFrom i) % 2 ^ 32 ≤ s.timeout.toNat) →
    s.timeout.toNat < (e + s.waitedFrom j) % 2 ^ 32 →
    (State.receiveLoop n s).1 = .timeout ∧ (State.receiveLoop n s).2.moveCount = s.moveCount + j ∧
      (State.receiveLoop n s).2.rxn.toNat = s.rxn.toNat + s.takenFrom j := by
  induction j with
  | zero =>
    intro n s e _ hr hn _ hd hc _ hlate
    obtain ⟨n, rfl⟩ : ∃ n', n = n' + 1 := ⟨n - 1, by omega⟩
    have hlt : s.rxn < s.rxlen := by show s.rxn.toNat < s.rxlen.toNat; omega
    unfold State.receiveLoop
    rw [if_pos hlt, if_pos ((State.deadlinePassed_sample_iff (by omega) hc).2 hlate)]
    exact ⟨rfl, rfl, rfl⟩
  | succ j ih =>
    intro n s e h24 hr hn hm hd hc hw hlate
    obtain ⟨n, rfl⟩ : ∃ n', n = n' + 1 := ⟨n - 1, by omega⟩
    have hlt : s.rxn < s.rxlen := by show s.rxn.toNat < s.rxlen.toNat; omega
    have hnp : ¬ s.sample.deadlinePassed = true := by
      rw [State.deadlinePassed_sample_iff (by omega) hc]
      have := hw 0 (by omega)
      omega
    obtain ⟨m, ms, x, hms, hml, hdl, hck, hwait⟩ := State.iterate_scripted (s := s) (by omega) (by omega) hc
    have htaken := State.takenFrom_iterate hms (by omega) j
    unfold State.receiveLoop
    rw [if_pos hlt, if_neg hnp, show s.sample.poll.yield = s.iterate from rfl]
    obtain ⟨h1, h2, h3⟩ := ih n s.iterate x (by rw [State.iterate_rxlen]; exact h24)
      (by rw [State.iterate_rxlen]; omega) (by omega) (by omega) (by omega) hck
      (fun i hi => by rw [hwait, State.iterate_timeout]; exact hw (i + 1) (by omega))
      (by rw [hwait, State.iterate_timeout]; exact hlate)
    rw [State.iterate_moveCount] at h2
    exact ⟨h1, by omega, by omega⟩

/-! ### The whole exchange -/

/-- All that an exchange writes (R131). -/
theorem State.exchange_eq (s : State) (cl n : Nat) :
    ∃ ch cl' i tb rb lg ti rn ts c q mv mc d dc, (s.exchange cl n).2 =
      { s with
        txlen := BitVec.ofNat 8 cl, rxlen := BitVec.ofNat 8 n, phase := .rx
        crchi := ch, crclo := cl', idx := i, txbuf := tb, respbuf := rb, txlog := lg, txi := ti, rxn := rn, tstart := ts
        clock := c, rxq := q, moves := mv, moveCount := mc, drifts := d, driftCount := dc } := by
  obtain ⟨m, r, c, q, mv, mc, d, dc, h⟩ := State.receiveLoop_eq ((s.sendFrame cl n).moves.length + 1) (s.sendFrame cl n)
  obtain ⟨i, hi⟩ := s.sendFrame_eq cl n
  obtain ⟨ch, cl', tb, lg, ti, ts, ck, q', mv', mc', hi'⟩ : ∃ ch cl' tb lg ti ts ck q' mv' mc', s.sendFrame cl n =
      { s with
        txlen := BitVec.ofNat 8 cl, rxlen := BitVec.ofNat 8 n, phase := .rx, crchi := ch, crclo := cl', idx := i
        txbuf := tb, txlog := lg, txi := ti, rxn := 0, tstart := ts, clock := ck, rxq := q', moves := mv'
        moveCount := mc', drifts := s.drifts.tail, driftCount := s.driftCount + 1 } :=
    ⟨_, _, _, _, _, _, _, _, _, _, hi⟩
  refine ⟨ch, cl', i, tb, m, lg, ti, r, ts, c, q, mv, mc, d, dc, ?_⟩
  unfold State.exchange State.receive
  rw [h, hi']

/-- The frame an exchange sends, however the exchange ends (R113 to R117). -/
theorem State.exchange_sent (s : State) (cl n : Nat) (h4 : 4 ≤ cl) (h24 : cl ≤ 24) :
    FrameSent s (s.exchange cl n).2 cl (fun a => s.memRead .txbuf a) := by
  obtain ⟨m, r, c, q, mv, mc, d, dc, h⟩ := State.receiveLoop_eq ((s.sendFrame cl n).moves.length + 1) (s.sendFrame cl n)
  have hs := s.sendFrame_sent cl n h4 h24
  have h' : (s.exchange cl n).2 = _ := h
  have hread : ∀ a, (s.exchange cl n).2.memRead .txbuf a = (s.sendFrame cl n).memRead .txbuf a := by
    intro a; rw [h']; rfl
  have hbytes : ∀ k, (s.exchange cl n).2.bytes .txbuf k = (s.sendFrame cl n).bytes .txbuf k :=
    fun k => State.bytes_congr fun a _ => hread a
  exact
    { log := by rw [hbytes, ← hs.log, h']
      address := by rw [hread]; exact hs.address
      payload := fun a h1 h2 => by rw [hread]; exact hs.payload a h1 h2
      crcOk := by rw [hbytes]; exact hs.crcOk
      frame := fun a ha => by rw [hread]; exact hs.frame a ha
      accumulators := by rw [hbytes, ← hs.accumulators, h']; rfl
      txlen := by rw [h']; exact hs.txlen }

/-- `TXI` after an exchange, however it ends (log 9). -/
theorem State.exchange_txi (s : State) (cl n : Nat) : (s.exchange cl n).2.txi = BitVec.ofNat 8 cl := by
  obtain ⟨m, r, c, q, mv, mc, d, dc, h⟩ := State.receiveLoop_eq ((s.sendFrame cl n).moves.length + 1) (s.sendFrame cl n)
  have h' : (s.exchange cl n).2 = _ := h
  rw [h']
  exact s.sendFrame_txi cl n

/-- What the receive loop receives, in every environment (R121, R123, R124). -/
theorem State.receiveLoop_received (n : Nat) (s : State) (hl : s.rxlen.toNat ≤ 24) (hr : s.rxn ≤ s.rxlen) :
    Received s (State.receiveLoop n s).2 s.rxn.toNat := by
  obtain ⟨m, r, c, q, mv, mc, d, dc, h⟩ := State.receiveLoop_eq n s
  obtain ⟨j, l, k, e1, ec, e2, e3, e4, e5, e6, e7, e8⟩ := State.receiveLoop_collects n s hl hr
  have hlen : (State.receiveLoop n s).2.rxlen = s.rxlen := by rw [h]
  have hlog : (State.receiveLoop n s).2.txlog = s.txlog := by rw [h]
  have harr : s.arrived (State.receiveLoop n s).2 = l := by
    unfold State.arrived
    rw [ec, Nat.add_sub_cancel_left, hlog, e2]
    congr 1
    funext i
    rw [List.take_of_length_le (by omega)]
  generalize (State.receiveLoop n s).2 = t at *
  have hk : t.rxn.toNat - s.rxn.toNat = k := by omega
  exact
    { moveCount := by omega
      moves := by rw [e1, ec, Nat.add_sub_cancel_left]
      rxn := by rw [hlen]; omega
      enough := by rw [harr, hk]; exact e6
      received := fun a ha hb => by
        rw [harr, ← e7 _ (show a - s.rxn.toNat < k by omega), Nat.add_sub_cancel' ha]
      queue := by rw [harr, hk]; exact e5
      frame := fun a ha => e8 a (by omega) }

/-- What an exchange receives, in every environment (R116, R118, R121 to R124). -/
theorem State.exchange_received (s : State) (cl n : Nat) (h4 : 4 ≤ cl) (h24 : cl ≤ 24) (hn : n ≤ 24) :
    Received s (s.exchange cl n).2 0 := by
  obtain ⟨i, hi⟩ := s.sendFrame_eq cl n
  obtain ⟨hmv, hmc, hq⟩ := s.sendFrame_environment cl n h24
  have hlog : (s.sendFrame cl n).txlog.length = s.txlog.length + cl := by
    rw [(s.sendFrame_sent cl n h4 h24).log]; simp
  have hread : ∀ a, (s.sendFrame cl n).memRead .respbuf a = s.memRead .respbuf a := by intro a; rw [hi]; rfl
  have hrxn : (s.sendFrame cl n).rxn = 0 := by rw [hi]
  have hrxlen : (s.sendFrame cl n).rxlen.toNat = n := by rw [hi]; simp; omega
  generalize hu : s.sendFrame cl n = u at *
  have hr := State.receiveLoop_received (u.moves.length + 1) u (by omega) (by rw [hrxn]; exact Nat.zero_le _)
  have hsame : (State.receiveLoop (u.moves.length + 1) u).2.txlog = u.txlog := by
    obtain ⟨m, r, c, q, mv, mc, d, dc, h⟩ := State.receiveLoop_eq (u.moves.length + 1) u
    rw [h]
  have he : (s.exchange cl n).2 = (State.receiveLoop (u.moves.length + 1) u).2 := by rw [← hu]; rfl
  rw [he]
  generalize (State.receiveLoop (u.moves.length + 1) u).2 = t at *
  have hr0 : u.rxn.toNat = 0 := by rw [hrxn]; rfl
  obtain ⟨r1, r2, r3, r4, r5, r6, r7⟩ := hr
  rw [hr0] at r3 r4 r5 r6 r7
  have hall : u.rxq ++ u.arrived t = s.rxq ++ s.arrived t := by
    unfold State.arrived
    rw [hq, hsame, List.append_assoc, show t.moveCount - s.moveCount = cl + (t.moveCount - u.moveCount) by omega,
      List.range_add, List.flatMap_append, List.flatMap_map]
    congr 2
    congr 1
    funext j
    rw [State.moveAt_of_drop hmv hmc, List.take_of_length_le (by omega), List.take_of_length_le (by omega)]
  rw [hall] at r4 r5 r6
  exact
    { moveCount := by omega
      moves := by
        rw [r2, hmv, List.drop_drop]
        congr 1
        omega
      rxn := r3
      enough := r4
      received := r5
      queue := r6
      frame := fun a ha => by rw [r7 a ha, hread] }

theorem State.arrivals_drop (s : State) (a b : Nat) :
    s.arrivals a ++ ((s.moves.drop a).take b).flatMap Move.bytes = s.arrivals (a + b) := by
  unfold State.arrivals
  rw [List.append_assoc, ← List.flatMap_append, List.take_add]

/-- What an exchange collects, when its receive loop took `j` scripted moves (R118 to R124). -/
theorem State.exchange_collected (s : State) (cl n j : Nat) (h24 : cl ≤ 24) (hn : n ≤ 24) (hd : 0 < s.drifts.length)
    (hj : (s.exchange cl n).2.moveCount = (s.sendFrame cl n).moveCount + j) (hm : cl + j ≤ s.moves.length) :
    ∃ k, Collected s (s.exchange cl n).2 cl n k ∧ k ≤ n ∧ k ≤ (s.arrivals (cl + j)).length := by
  obtain ⟨hq, hmv, hck⟩ := s.sendFrame_scripted cl n h24 (by omega) hd
  obtain ⟨i, hi⟩ := s.sendFrame_eq cl n
  have hrxlen : (s.sendFrame cl n).rxlen.toNat = n := by rw [hi]; simp; omega
  have hrxn : (s.sendFrame cl n).rxn = 0 := by rw [hi]
  have hrx : (s.sendFrame cl n).rxn.toNat = 0 := by rw [hrxn]; rfl
  have hts : (s.sendFrame cl n).tstart = (s.sendFrame cl n).clock := by rw [hi]
  have hread0 : ∀ a, (s.sendFrame cl n).memRead .respbuf a = s.memRead .respbuf a := by
    intro a; rw [hi]; rfl
  obtain ⟨m, r, c, q, mv, mc, d, dc, h⟩ := State.receiveLoop_eq ((s.sendFrame cl n).moves.length + 1) (s.sendFrame cl n)
  obtain ⟨j0, l, k, e1, ec, e2, e3, e4, e5, e6, e7, e8⟩ := State.receiveLoop_collects
    ((s.sendFrame cl n).moves.length + 1) (s.sendFrame cl n) (by omega) (by rw [hrxn]; exact Nat.zero_le _)
  have h' : (s.exchange cl n).2 = (State.receiveLoop ((s.sendFrame cl n).moves.length + 1) (s.sendFrame cl n)).2 := rfl
  rw [← h'] at e1 ec e3 e5 e7 e8 h
  rw [hrx, Nat.zero_add] at e3 e4 e8
  have hjj : j0 = j := by omega
  subst hjj
  have hl := e2.trans (State.flatMap_moveAt_scripted _ _ _ (by rw [hmv, List.length_drop]; omega))
  rw [hmv] at e1 hl
  have hmc := (s.sendFrame_environment cl n h24).2.1
  have hcat : (s.sendFrame cl n).rxq ++ l = s.arrivals (cl + j0) := by rw [hq, hl, State.arrivals_drop]
  rw [hcat] at e5 e6 e7
  refine ⟨k, ?_, by omega, e6⟩
  exact
    { received := fun a ha => by
        have := e7 a ha
        rw [hrx, Nat.zero_add] at this
        rw [this]
        exact State.arrivals_getElem?_mono hm (by omega)
      frame := fun a ha => by rw [e8 a (.inr ha), hread0]
      rxn := e3
      rxlen := by rw [h]; exact hrxlen
      tstart := by rw [h]; show (s.sendFrame cl n).tstart = _; rw [hts, hck]
      queue := ⟨cl + j0, by rw [e1, List.drop_drop], by omega, e5⟩ }

/-- What no exchange writes (R131). -/
theorem State.exchange_same (s : State) (cl n : Nat) :
    SameConfig s (s.exchange cl n).2 ∧ SameCached s (s.exchange cl n).2 ∧ SameHost s (s.exchange cl n).2 ∧
      (s.exchange cl n).2.cmd = s.cmd ∧ (s.exchange cl n).2.busy = s.busy ∧ (s.exchange cl n).2.phase = .rx ∧
      (s.exchange cl n).2.result = s.result ∧ (s.exchange cl n).2.status = s.status := by
  obtain ⟨_, _, _, _, _, _, _, _, _, _, _, _, _, _, _, h⟩ := s.exchange_eq cl n
  rw [h]
  exact ⟨⟨rfl, rfl, rfl, rfl⟩, ⟨rfl, rfl, rfl⟩, ⟨rfl, rfl⟩, rfl, rfl, rfl, rfl, rfl⟩

theorem State.taken_eq_takenFrom (s : State) (cl n k : Nat) (hmv : (s.sendFrame cl n).moves = s.moves.drop cl)
    (hq : (s.sendFrame cl n).rxq = s.arrivals cl) : (s.sendFrame cl n).takenFrom k = s.taken cl k := by
  have h : ∀ i, (s.sendFrame cl n).arrivals i = s.arrivals (cl + i) := fun i => by
    rw [← State.arrivals_drop, ← hq, ← hmv]; rfl
  unfold State.takenFrom State.taken
  simp only [h]

theorem State.waited_eq_waitedFrom (s : State) (cl n k : Nat) (hmv : (s.sendFrame cl n).moves = s.moves.drop cl) :
    (s.sendFrame cl n).waitedFrom k = s.waited cl k := by
  obtain ⟨i, hi⟩ := s.sendFrame_eq cl n
  have hd : (s.sendFrame cl n).drifts = s.drifts.drop 1 := by rw [hi, List.drop_one]
  unfold State.waitedFrom State.waited
  rw [hmv, hd]

/-- The state in which the receive loop begins, by the script: what the loop's lemmas ask of it. -/
theorem State.sendFrame_loopStart (s : State) (cl n : Nat) (h24 : cl ≤ 24) (hn : n ≤ 24) {j k : Nat}
    (h : Iterates s cl j k) :
    (s.sendFrame cl n).rxlen.toNat = n ∧ (s.sendFrame cl n).rxn.toNat = 0 ∧ (s.sendFrame cl n).takenFrom j = k ∧
      j ≤ (s.sendFrame cl n).moves.length ∧ (s.sendFrame cl n).drifts.length + 1 = s.drifts.length ∧
      (s.sendFrame cl n).clock = (s.sendFrame cl n).tstart + BitVec.ofNat 32 0 ∧
      (∀ i, 0 + (s.sendFrame cl n).waitedFrom i = s.waited cl i) ∧ (s.sendFrame cl n).timeout = s.timeout := by
  have hm := h.moves
  have hd := h.drifts
  obtain ⟨hq, hmv, -⟩ := s.sendFrame_scripted cl n h24 (by omega) (by omega)
  obtain ⟨i, hi⟩ := s.sendFrame_eq cl n
  refine ⟨by rw [hi]; simp; omega, by rw [hi]; rfl, ?_, by rw [hmv, List.length_drop]; omega, ?_, by rw [hi]; simp,
    fun i => by rw [State.waited_eq_waitedFrom s cl n _ hmv, Nat.zero_add], by rw [hi]⟩
  · rw [State.taken_eq_takenFrom s cl n _ hmv hq, h.taken]
  · have : (s.sendFrame cl n).drifts = s.drifts.tail := by rw [hi]
    rw [this, List.length_tail]; omega

/-- An exchange that the environment answers in time succeeds, with every byte in its place (R112, R123). -/
theorem State.exchange_prompt (s : State) (cl n : Nat) (h4 : 4 ≤ cl) (h24 : cl ≤ 24) (hn : n ≤ 24) (hp : Prompt s cl n) :
    (s.exchange cl n).1 = .success ∧ Exchanged s (s.exchange cl n).2 cl n n (fun a => s.memRead .txbuf a) := by
  obtain ⟨j, hj⟩ := hp
  have hm := hj.moves
  have hd := hj.drifts
  obtain ⟨hlen, hrxn, htak, hmv, hdr, hck, hwt, hto⟩ := s.sendFrame_loopStart cl n h24 hn hj
  obtain ⟨h1, i, hi, h2⟩ := State.receiveLoop_success j ((s.sendFrame cl n).moves.length + 1) (s.sendFrame cl n) 0
    (by omega) (by omega) (by omega) hmv (by omega) hck (fun i hi => by rw [hwt, hto]; exact hj.inTime i hi)
  refine ⟨h1, s.exchange_sent cl n h4 h24, ?_, (s.exchange_same cl n).2.2.1⟩
  obtain ⟨k, hc, hk, -⟩ := s.exchange_collected cl n i h24 hn (by omega) h2 (by omega)
  have hend := State.receiveLoop_end ((s.sendFrame cl n).moves.length + 1) (s.sendFrame cl n)
  rw [show State.receiveLoop _ (s.sendFrame cl n) = (.success, (s.exchange cl n).2) from Prod.ext h1 rfl] at hend
  have hge : ¬ (s.exchange cl n).2.rxn.toNat < (s.exchange cl n).2.rxlen.toNat := hend
  rw [hc.rxn, hc.rxlen] at hge
  obtain rfl : k = n := by omega
  exact hc

/-- An exchange that the environment does not answer in time times out, with the bytes taken by then (R120, R126,
R129). -/
theorem State.exchange_tooLate (s : State) (cl n k : Nat) (h4 : 4 ≤ cl) (h24 : cl ≤ 24) (hn : n ≤ 24)
    (hp : TooLate s cl n k) :
    (s.exchange cl n).1 = .timeout ∧ Exchanged s (s.exchange cl n).2 cl n k (fun a => s.memRead .txbuf a) := by
  obtain ⟨hkn, j, hj, hd, hlate⟩ := hp
  have hm := hj.moves
  obtain ⟨hlen, hrxn, htak, hmv, hdr, hck, hwt, hto⟩ := s.sendFrame_loopStart cl n h24 hn hj
  obtain ⟨h1, h2, h3⟩ := State.receiveLoop_timeout j ((s.sendFrame cl n).moves.length + 1) (s.sendFrame cl n) 0
    (by omega) (by omega) (by omega) hmv (by omega) hck (fun i hi => by rw [hwt, hto]; exact hj.inTime i hi)
    (by rw [hwt, hto]; exact hlate)
  obtain ⟨k', hc, -, -⟩ := s.exchange_collected cl n j h24 hn (by omega) h2 (by omega)
  have h3' : (s.exchange cl n).2.rxn.toNat = k := by
    show (State.receiveLoop ((s.sendFrame cl n).moves.length + 1) (s.sendFrame cl n)).2.rxn.toNat = k
    omega
  obtain rfl : k' = k := hc.rxn.symm.trans h3'
  exact ⟨h1, s.exchange_sent cl n h4 h24, hc, (s.exchange_same cl n).2.2.1⟩

end Sys2Proof.Machine
end

