-- ==== Sys2Proof/Laws/Build.lean ====
section
/-! SUPPORT. The frame builder and the operand packing (spec/42_operations.md R141, R149), what follows an exchange,
and that every operation that writes a buffer keeps its canonical form. -/

namespace Sys2Proof.Machine

theorem State.txWrite_eq (s : State) (a : Nat) (b : Byte) : ∃ m, s.txWrite a b = { s with txbuf := m } := by
  unfold State.txWrite; split <;> exact ⟨_, rfl⟩

theorem State.putTemplate_eq (p : Params) (op : SensorOp) (x : Word32) (n : Nat) (s : State) :
    ∃ m, State.putTemplate p op x n s = { s with txbuf := m } := by
  induction n with
  | zero => exact ⟨_, rfl⟩
  | succ n ih =>
    obtain ⟨m, h⟩ := ih
    obtain ⟨m', h'⟩ := (State.putTemplate p op x n s).txWrite_eq n (p.template op x n)
    exact ⟨m', by unfold State.putTemplate; rw [h', h]⟩

theorem State.putTemplate_memRead (p : Params) (op : SensorOp) (x : Word32) (n : Nat) (s : State) (hn : n ≤ 24)
    (sp : Space) (a : Nat) :
    (State.putTemplate p op x n s).memRead sp a =
      if sp = .txbuf ∧ a < n then p.template op x a else s.memRead sp a := by
  induction n with
  | zero => simp [State.putTemplate]
  | succ n ih =>
    unfold State.putTemplate
    rw [State.txWrite_memRead, ih (by omega)]
    by_cases hsp : sp = .txbuf
    · subst hsp
      by_cases ha : a = n
      · subst ha
        rw [if_pos ⟨rfl, rfl, by unfold bufCap; omega⟩, if_pos ⟨rfl, by omega⟩]
      · rw [if_neg (by omega)]
        exact if_congr (by simp only [true_and]; omega) rfl rfl
    · simp [hsp]

/-- All that the frame builder writes (R141). -/
theorem State.build_eq (s : State) (p : Params) (op : SensorOp) (x : Word32) :
    ∃ m, s.build p op x = { s with phase := .build, txbuf := m } := by
  obtain ⟨m, h⟩ := State.putTemplate_eq p op x (p.cmdLen op) (s.setPhase .build)
  exact ⟨m, h⟩

/-- The template's bytes below its length, every other byte as before (R141). -/
theorem State.build_memRead (s : State) (p : Params) (op : SensorOp) (x : Word32) (sp : Space) (a : Nat) :
    (s.build p op x).memRead sp a =
      if sp = .txbuf ∧ a < p.cmdLen op then p.template op x a else s.memRead sp a := by
  rw [State.build, State.putTemplate_memRead _ _ _ _ _ (p.cmdLen_le op), State.setPhase_memRead]

theorem State.put16le_eq (s : State) (k : Nat) (v : Word32) : ∃ m, s.put16le k v = { s with txbuf := m } := by
  obtain ⟨m, h⟩ := s.txWrite_eq k (byteOf v 0)
  obtain ⟨m', h'⟩ := (s.txWrite k (byteOf v 0)).txWrite_eq (k + 1) (byteOf v 1)
  exact ⟨m', by unfold State.put16le; rw [h', h]⟩

theorem State.put16le_memRead (s : State) (k : Nat) (v : Word32) (hk : k + 1 < 24) (sp : Space) (a : Nat) :
    (s.put16le k v).memRead sp a =
      if sp = .txbuf ∧ k ≤ a ∧ a < k + 2 then byteOf v (a - k) else s.memRead sp a := by
  unfold State.put16le
  rw [State.txWrite_memRead, State.txWrite_memRead]
  by_cases hsp : sp = .txbuf
  · subst hsp
    unfold bufCap
    by_cases h1 : a = k + 1
    · rw [if_pos ⟨rfl, h1, hk⟩, if_pos ⟨rfl, by omega, by omega⟩, show a - k = 1 by omega]
    · by_cases h0 : a = k
      · rw [if_neg (by omega), if_pos ⟨rfl, h0, by omega⟩, if_pos ⟨rfl, by omega, by omega⟩, show a - k = 0 by omega]
      · rw [if_neg (by omega), if_neg (by omega), if_neg (by omega)]
  · simp [hsp]

theorem State.put24le_eq (s : State) (k : Nat) (v : Word32) : ∃ m, s.put24le k v = { s with txbuf := m } := by
  obtain ⟨m, h⟩ := s.put16le_eq k v
  obtain ⟨m', h'⟩ := (s.put16le k v).txWrite_eq (k + 2) (byteOf v 2)
  exact ⟨m', by rw [show s.put24le k v = (s.put16le k v).txWrite (k + 2) (byteOf v 2) from rfl, h', h]⟩

theorem State.put24le_memRead (s : State) (k : Nat) (v : Word32) (hk : k + 2 < 24) (sp : Space) (a : Nat) :
    (s.put24le k v).memRead sp a =
      if sp = .txbuf ∧ k ≤ a ∧ a < k + 3 then byteOf v (a - k) else s.memRead sp a := by
  rw [show s.put24le k v = (s.put16le k v).txWrite (k + 2) (byteOf v 2) from rfl, State.txWrite_memRead,
    State.put16le_memRead _ _ _ (by omega)]
  by_cases hsp : sp = .txbuf
  · subst hsp
    unfold bufCap
    by_cases h2 : a = k + 2
    · rw [if_pos ⟨rfl, h2, hk⟩, if_pos ⟨rfl, by omega, by omega⟩, show a - k = 2 by omega]
    · rw [if_neg (by omega)]
      exact if_congr (by simp only [true_and]; omega) rfl rfl
  · simp [hsp]

/-! ### The canonical form -/

theorem State.put16le_wf (s : State) (k : Nat) (v : Word32) (h : Memory.wf s.txbuf) : Memory.wf (s.put16le k v).txbuf :=
  State.txWrite_wf _ _ _ (State.txWrite_wf _ _ _ h)

theorem State.put24le_wf (s : State) (k : Nat) (v : Word32) (h : Memory.wf s.txbuf) : Memory.wf (s.put24le k v).txbuf :=
  State.txWrite_wf _ _ _ (State.put16le_wf _ _ _ h)

theorem State.build_wf (s : State) (p : Params) (op : SensorOp) (x : Word32) (h : Memory.wf s.txbuf) :
    Memory.wf (s.build p op x).txbuf := by
  unfold State.build
  have : ∀ n, Memory.wf (State.putTemplate p op x n (s.setPhase .build)).txbuf := by
    intro n
    induction n with
    | zero => exact h
    | succ n ih => exact State.txWrite_wf _ _ _ ih
  exact this _

/-- An exchange keeps both buffers canonical. -/
theorem State.exchange_wf (s : State) (cl n : Nat) (ht : Memory.wf s.txbuf) (hr : Memory.wf s.respbuf) :
    Memory.wf (s.exchange cl n).2.txbuf ∧ Memory.wf (s.exchange cl n).2.respbuf := by
  have htx : Memory.wf (s.sendFrame cl n).txbuf := by
    have h0 : Memory.wf (s.enter cl n).putAddress.txbuf := State.txWrite_wf _ _ _ ht
    have h1 : Memory.wf (s.enter cl n).putAddress.frameCrc.txbuf := by
      obtain ⟨i, hi⟩ := (s.enter cl n).putAddress.frameCrc_eq
      rw [hi]; exact h0
    have h2 : Memory.wf (s.completeFrame cl n).txbuf := State.txWrite_wf _ _ _ (State.txWrite_wf _ _ _ h1)
    rw [State.sendFrame, State.startReceive_txbuf, State.transmit_eq]
    exact h2
  have hrx : Memory.wf (s.sendFrame cl n).respbuf := by
    obtain ⟨i, hi⟩ := s.sendFrame_eq cl n
    rw [hi]; exact hr
  refine ⟨?_, State.receiveLoop_wf _ _ hrx⟩
  obtain ⟨m, r, c, q, mv, mc, d, dc, h⟩ := State.receiveLoop_eq ((s.sendFrame cl n).moves.length + 1) (s.sendFrame cl n)
  have h' : (s.exchange cl n).2 = _ := h
  rw [h']
  exact htx

/-! ### What follows an exchange -/

theorem conclude_success {sentinel : Word32} {k : State → State} {r : ExchangeOutcome × State} (h : r.1 = .success) :
    conclude sentinel k r = k r.2 := by
  obtain ⟨o, s⟩ := r; cases h; rfl

theorem conclude_timeout {sentinel : Word32} {k : State → State} {r : ExchangeOutcome × State} (h : r.1 = .timeout) :
    conclude sentinel k r = r.2.raise .timeout sentinel := by
  obtain ⟨o, s⟩ := r; cases h; rfl

theorem conclude_waiting {sentinel : Word32} {k : State → State} {r : ExchangeOutcome × State} (h : r.1 = .waiting) :
    conclude sentinel k r = r.2 := by
  obtain ⟨o, s⟩ := r; cases h; rfl

/-- Everything that can follow an exchange, one case an outcome (R123, R126, log 1). -/
theorem conclude_cases (sentinel : Word32) (k : State → State) (r : ExchangeOutcome × State) :
    (r.1 = .success ∧ conclude sentinel k r = k r.2) ∨
      (r.1 = .timeout ∧ conclude sentinel k r = r.2.raise .timeout sentinel) ∨
      (r.1 = .waiting ∧ conclude sentinel k r = r.2) := by
  obtain ⟨o, s⟩ := r
  cases o
  · exact .inl ⟨rfl, rfl⟩
  · exact .inr (.inl ⟨rfl, rfl⟩)
  · exact .inr (.inr ⟨rfl, rfl⟩)

end Sys2Proof.Machine
end

