-- ==== Sys2Proof/Laws/Clock.lean ====
section
/-! SUPPORT. The free moves of the environment: the Clock they drive is live (spec/20_memory.md R49, log 20). -/

namespace Sys2Proof

@[simp] theorem Config.freeMove_bytes (k : Nat) (log : List Byte) : (Config.freeMove k log).bytes = Config.freeBytes k log :=
  rfl

/-- A guaranteed tick advances the Clock. -/
theorem Config.freeMove_advances {k : Nat} (h : Config.tickDue k = true) (log : List Byte) :
    0 < (Config.freeMove k log).advance.toNat := by
  unfold Config.freeMove
  dsimp only
  rw [h]
  generalize Config.freeAdvance k log = x
  by_cases hx : x = 0
  · subst hx; decide
  · rw [if_neg (by simpa using hx)]
    exact Nat.pos_of_ne_zero fun h => hx (BitVec.eq_of_toNat_eq h)

/-- A move that is no guaranteed tick is as free as it can be. -/
theorem Config.freeMove_advance_of_not_due {k : Nat} (h : Config.tickDue k = false) (log : List Byte) :
    (Config.freeMove k log).advance = Config.freeAdvance k log := by
  unfold Config.freeMove
  dsimp only
  rw [h]
  rfl

theorem Config.tickSchedule_countdown (j : Nat) :
    ∀ n k, Config.tickSchedule k = (j, n) → Config.tickSchedule (k + n) = (j, 0) := by
  intro n
  induction n with
  | zero => intro k h; exact h
  | succ n ih =>
    intro k h
    rw [show k + (n + 1) = k + 1 + n by omega]
    exact ih (k + 1) (by rw [Config.tickSchedule, h])

/-- After any number of moves the next guaranteed tick is finitely many moves away. -/
theorem Config.tickDue_after (k : Nat) : ∃ n, Config.tickDue (k + n) = true :=
  ⟨(Config.tickSchedule k).2, by
    unfold Config.tickDue
    rw [Config.tickSchedule_countdown _ _ k rfl]
    rfl⟩

end Sys2Proof
end

