-- ==== Sys2Proof/Laws/Finish.lean ====
section
/-! SUPPORT. What follows an exchange (spec/41_request.md R126, spec/42_operations.md R143): what a command's finish may
write, whichever of the three ends the exchange had. -/

namespace Sys2Proof.Machine

/-- A command whose receive loop still runs is left as it is (log 1). -/
theorem finish_waiting {i : Instr} {finish : ExchangeOutcome × State → State} (hf : finishOf i = some finish) (e : State) :
    finish (.waiting, e) = e := by
  cases i <;> cases hf <;> rfl

/-- A timeout raises `TimeoutError` with the command's sentinel (R126, R144). -/
theorem finish_timeout {i : Instr} {finish : ExchangeOutcome × State → State} (hf : finishOf i = some finish) (e : State) :
    finish (.timeout, e) = e.raise .timeout (timeoutResult i) := by
  cases i <;> cases hf <;> rfl

/-- All that a finish writes: the host-interface registers, `PHASE`, and the registers that a response is decoded into
(R31, R143). -/
theorem finish_eq {i : Instr} {finish : ExchangeOutcome × State → State} (hf : finishOf i = some finish)
    (r : ExchangeOutcome × State) :
    ∃ ph re st b g a ad, finish r =
      { r.2 with phase := ph, result := re, status := st, busy := b, gas := g, airp := a, addr := ad } := by
  obtain ⟨o, e⟩ := r
  cases o
  case waiting => rw [finish_waiting hf]; exact ⟨_, _, _, _, _, _, _, rfl⟩
  case timeout => rw [finish_timeout hf]; exact ⟨_, _, _, _, _, _, _, rfl⟩
  case success =>
    cases i <;> cases hf
    case getGasConcentration =>
      unfold finishGetGasConcentration conclude
      dsimp only
      split <;> exact ⟨_, _, _, _, _, _, _, rfl⟩
    case setSinglePointCorrection =>
      unfold finishSetSinglePointCorrection conclude
      dsimp only
      split <;> exact ⟨_, _, _, _, _, _, _, rfl⟩
    case setSelfCalibrationHours =>
      unfold finishSetSelfCalibrationHours conclude
      dsimp only
      split <;> exact ⟨_, _, _, _, _, _, _, rfl⟩
    all_goals exact ⟨_, _, _, _, _, _, _, rfl⟩

end Sys2Proof.Machine
end

