-- ==== Sys2Proof/Laws/PerInstr.lean ====
section
/-! SUPPORT. Lemmas per instruction. `EncodedFields`: the opcode and the operand of a command's word read back as
written (spec/30_encoding.md R61). -/

namespace Sys2Proof.Laws

theorem opcodeOf_commandWord (op : Byte) (v : Word32) : opcodeOf (commandWord op v) = op := extract_high_append op v

theorem operandOf_commandWord (op : Byte) (v : Word32) : operandOf (commandWord op v) = v := extract_low_append op v

/-- The word of `i` is an opcode and an operand, and both read back. -/
def EncodedFields.Statement (i : Instr) : Prop :=
  ∃ op v, encode i = commandWord op v ∧ opcodeOf (encode i) = op ∧ operandOf (encode i) = v

theorem EncodedFields.beginAddr (a : Byte) : EncodedFields.Statement (.beginAddr a) :=
  ⟨_, _, rfl, opcodeOf_commandWord _ _, operandOf_commandWord _ _⟩

theorem EncodedFields.isConnected : EncodedFields.Statement .isConnected :=
  ⟨_, _, rfl, opcodeOf_commandWord _ _, operandOf_commandWord _ _⟩

theorem EncodedFields.getAddress : EncodedFields.Statement .getAddress :=
  ⟨_, _, rfl, opcodeOf_commandWord _ _, operandOf_commandWord _ _⟩

theorem EncodedFields.setAddress (a : Byte) : EncodedFields.Statement (.setAddress a) :=
  ⟨_, _, rfl, opcodeOf_commandWord _ _, operandOf_commandWord _ _⟩

theorem EncodedFields.setGenericAddress : EncodedFields.Statement .setGenericAddress :=
  ⟨_, _, rfl, opcodeOf_commandWord _ _, operandOf_commandWord _ _⟩

theorem EncodedFields.setSpecificAddress : EncodedFields.Statement .setSpecificAddress :=
  ⟨_, _, rfl, opcodeOf_commandWord _ _, operandOf_commandWord _ _⟩

theorem EncodedFields.useSpecificAddress : EncodedFields.Statement .useSpecificAddress :=
  ⟨_, _, rfl, opcodeOf_commandWord _ _, operandOf_commandWord _ _⟩

theorem EncodedFields.getAirPressureReference : EncodedFields.Statement .getAirPressureReference :=
  ⟨_, _, rfl, opcodeOf_commandWord _ _, operandOf_commandWord _ _⟩

theorem EncodedFields.setAirPressureReference (v : Word32) : EncodedFields.Statement (.setAirPressureReference v) :=
  ⟨_, _, rfl, opcodeOf_commandWord _ _, operandOf_commandWord _ _⟩

theorem EncodedFields.getGasConcentration : EncodedFields.Statement .getGasConcentration :=
  ⟨_, _, rfl, opcodeOf_commandWord _ _, operandOf_commandWord _ _⟩

theorem EncodedFields.setSinglePointCorrection (v : Half) : EncodedFields.Statement (.setSinglePointCorrection v) :=
  ⟨_, _, rfl, opcodeOf_commandWord _ _, operandOf_commandWord _ _⟩

theorem EncodedFields.getSinglePointCorrectionReady : EncodedFields.Statement .getSinglePointCorrectionReady :=
  ⟨_, _, rfl, opcodeOf_commandWord _ _, operandOf_commandWord _ _⟩

theorem EncodedFields.openSelfCalibration : EncodedFields.Statement .openSelfCalibration :=
  ⟨_, _, rfl, opcodeOf_commandWord _ _, operandOf_commandWord _ _⟩

theorem EncodedFields.closeSelfCalibration : EncodedFields.Statement .closeSelfCalibration :=
  ⟨_, _, rfl, opcodeOf_commandWord _ _, operandOf_commandWord _ _⟩

theorem EncodedFields.getSelfCalibrationStatus : EncodedFields.Statement .getSelfCalibrationStatus :=
  ⟨_, _, rfl, opcodeOf_commandWord _ _, operandOf_commandWord _ _⟩

theorem EncodedFields.setSelfCalibrationHours (h : Half) : EncodedFields.Statement (.setSelfCalibrationHours h) :=
  ⟨_, _, rfl, opcodeOf_commandWord _ _, operandOf_commandWord _ _⟩

theorem EncodedFields.getSelfCalibrationHours : EncodedFields.Statement .getSelfCalibrationHours :=
  ⟨_, _, rfl, opcodeOf_commandWord _ _, operandOf_commandWord _ _⟩

theorem EncodedFields.setTimeout (ms : Word32) : EncodedFields.Statement (.setTimeout ms) :=
  ⟨_, _, rfl, opcodeOf_commandWord _ _, operandOf_commandWord _ _⟩

theorem EncodedFields.getTimeout : EncodedFields.Statement .getTimeout :=
  ⟨_, _, rfl, opcodeOf_commandWord _ _, operandOf_commandWord _ _⟩

theorem EncodedFields.suppressError (f : Bool) : EncodedFields.Statement (.suppressError f) :=
  ⟨_, _, rfl, opcodeOf_commandWord _ _, operandOf_commandWord _ _⟩

theorem EncodedFields.getSuppressError : EncodedFields.Statement .getSuppressError :=
  ⟨_, _, rfl, opcodeOf_commandWord _ _, operandOf_commandWord _ _⟩

theorem EncodedFields.lastRead : EncodedFields.Statement .lastRead :=
  ⟨_, _, rfl, opcodeOf_commandWord _ _, operandOf_commandWord _ _⟩

theorem EncodedFields.getType : EncodedFields.Statement .getType :=
  ⟨_, _, rfl, opcodeOf_commandWord _ _, operandOf_commandWord _ _⟩

theorem EncodedFields.lastError : EncodedFields.Statement .lastError :=
  ⟨_, _, rfl, opcodeOf_commandWord _ _, operandOf_commandWord _ _⟩

theorem EncodedFields.crc16 (n : Byte) : EncodedFields.Statement (.crc16 n) :=
  ⟨_, _, rfl, opcodeOf_commandWord _ _, operandOf_commandWord _ _⟩

theorem EncodedFields.request (cl rl : Byte) : EncodedFields.Statement (.request cl rl) :=
  ⟨_, _, rfl, opcodeOf_commandWord _ _, operandOf_commandWord _ _⟩

theorem EncodedFields.wrbuf (k b : Byte) : EncodedFields.Statement (.wrbuf k b) :=
  ⟨_, _, rfl, opcodeOf_commandWord _ _, operandOf_commandWord _ _⟩

theorem EncodedFields.rdbuf (k : Byte) : EncodedFields.Statement (.rdbuf k) :=
  ⟨_, _, rfl, opcodeOf_commandWord _ _, operandOf_commandWord _ _⟩

end Sys2Proof.Laws
end

