-- ==== Sys2Proof/Tests/Slice0.lean ====
section
/-! SUPPORT. Tests of the model against words and values written out from the spec, one step each. -/

namespace Sys2Proof.Tests
open Sys2Proof.Machine

/-! ### The fixture (spec/95_test_vectors.md section 2; not the sensor's command set) -/

def fixtureLen : SensorOp → Nat
  | .getAddress | .getAirPressureReference | .getGasConcentration | .setSelfCalibrationHours => 8
  | .setAddress | .setSinglePointCorrection => 9
  | .setAirPressureReference => 10
  | .getSinglePointCorrectionReady | .openSelfCalibration | .closeSelfCalibration | .getSelfCalibrationStatus
  | .getSelfCalibrationHours => 6

def fixtureBytes (x : Word32) : SensorOp → List Byte
  | .getAddress => [0, 0xA0, 0, 0, 0, 1, 0, 0]
  | .setAddress => [0, 0xA1, 0, 0, 0, 1, byteOf x 0, 0, 0]
  | .getAirPressureReference => [0, 0xA2, 0, 0, 0, 2, 0, 0]
  | .setAirPressureReference => [0, 0xA3, 0, 0, 0, 0, 0, byteOf x 3, 0, 0]
  | .getGasConcentration => [0, 0xA4, 0, 0, 0, 3, 0, 0]
  | .setSinglePointCorrection => [0, 0xA5, 0, 0, byteOf x 0, byteOf x 1, 0, 0, 0]
  | .getSinglePointCorrectionReady => [0, 0xA6, 0, 1, 0, 0]
  | .openSelfCalibration => [0, 0xA7, 0, 1, 0, 0]
  | .closeSelfCalibration => [0, 0xA7, 0, 0, 0, 0]
  | .getSelfCalibrationStatus => [0, 0xA8, 0, 0, 0, 0]
  | .setSelfCalibrationHours => [0, 0xA9, 0, 0, 0, 0, 0, 0]
  | .getSelfCalibrationHours => [0, 0xAA, 0, 0, 0, 0]

def fixture : Params where
  cmdLen := fixtureLen
  template := fun op x k => (fixtureBytes x op).getD k 0
  hrsOff := 4
  defaultAddr := 1
  deviceType := 2
  cmdLen_ge := by intro op; cases op <;> decide
  cmdLen_le := by intro op; cases op <;> decide
  hrsOff_ge := by decide
  hrsOff_le := by decide
  defaultAddr_le := by decide

/-- A state after reset, with `ADDR` = 1, a Clock reading, bytes in `RXQ`, the environment's next moves (after them, it
keeps still), and a Clock that stands still at samples. -/
def startWith (clock : Time) (rxq : List Byte) (moves : List Move) : State :=
  { State.afterReset 0 clock rxq (moves ++ List.replicate 30 { advance := 0, bytes := [] }) (List.replicate 40 0) 0 0 []
    with addr := 1 }

/-- The same, every move advancing the Clock by `adv` ("every yield: +adv"). -/
def start (clock : Time) (rxq : List Byte) (adv : Time) : State :=
  startWith clock rxq (List.replicate 40 { advance := adv, bytes := [] })

/-- `n` moves that change nothing. -/
def still (n : Nat) : List Move := List.replicate n { advance := 0, bytes := [] }

/-- One move. -/
def move (adv : Time) (bytes : List Byte) : Move := { advance := adv, bytes := bytes }

/-- The state after an answer, the given one where there is none. -/
def after (a : Answer) (s : State) : State := match a with | .next t => t | _ => s

/-- `RESULT` and `STATUS`. -/
def outcome (s : State) : Word32 × Byte := (s.result, s.status)

/-! ### Well-formedness: each check refuses an ill-formed command (spec/95 section 7) -/

theorem test_wf_crc16_25 : WellFormed (.crc16 25) = false ∧ WellFormed (.crc16 24) = true := by decide
theorem test_wf_request_short : WellFormed (.request 3 7) = false ∧ WellFormed (.request 4 7) = true := by decide
theorem test_wf_request_long : WellFormed (.request 25 0) = false ∧ WellFormed (.request 24 0) = true := by decide
theorem test_wf_request_response : WellFormed (.request 4 25) = false ∧ WellFormed (.request 24 24) = true := by decide
theorem test_wf_wrbuf_24 : WellFormed (.wrbuf 24 0) = false ∧ WellFormed (.wrbuf 23 0xAA) = true := by decide
theorem test_wf_rdbuf_24 : WellFormed (.rdbuf 24) = false ∧ WellFormed (.rdbuf 23) = true := by decide

/-! ### Decoding: a word of each command, written out from R61, R62 and R66 (and the words of spec/95) -/

theorem test_decode_beginAddr : decodeTableWord 40 0x01000000F7 = some (.beginAddr 247) ∧ encode (.beginAddr 247) = 0x01000000F7#40 := by decide
theorem test_decode_isConnected : decodeTableWord 40 0x0200000000 = some (.isConnected) ∧ encode (.isConnected) = 0x0200000000#40 := by decide
theorem test_decode_getAddress : decodeTableWord 40 0x1000000000 = some (.getAddress) ∧ encode (.getAddress) = 0x1000000000#40 := by decide
theorem test_decode_setAddress : decodeTableWord 40 0x11000000FE = some (.setAddress 254) ∧ encode (.setAddress 254) = 0x11000000FE#40 := by decide
theorem test_decode_setGenericAddress : decodeTableWord 40 0x1200000000 = some (.setGenericAddress) ∧ encode (.setGenericAddress) = 0x1200000000#40 := by decide
theorem test_decode_setSpecificAddress : decodeTableWord 40 0x1300000000 = some (.setSpecificAddress) ∧ encode (.setSpecificAddress) = 0x1300000000#40 := by decide
theorem test_decode_useSpecificAddress : decodeTableWord 40 0x1400000000 = some (.useSpecificAddress) ∧ encode (.useSpecificAddress) = 0x1400000000#40 := by decide
theorem test_decode_getAirPressureReference : decodeTableWord 40 0x2000000000 = some (.getAirPressureReference) ∧ encode (.getAirPressureReference) = 0x2000000000#40 := by decide
theorem test_decode_setAirPressureReference : decodeTableWord 40 0x2144898333 = some (.setAirPressureReference 0x44898333) ∧ encode (.setAirPressureReference 0x44898333) = 0x2144898333#40 := by decide
theorem test_decode_getGasConcentration : decodeTableWord 40 0x2200000000 = some (.getGasConcentration) ∧ encode (.getGasConcentration) = 0x2200000000#40 := by decide
theorem test_decode_setSinglePointCorrection : decodeTableWord 40 0x3000001389 = some (.setSinglePointCorrection 5001) ∧ encode (.setSinglePointCorrection 5001) = 0x3000001389#40 := by decide
theorem test_decode_getSinglePointCorrectionReady : decodeTableWord 40 0x3100000000 = some (.getSinglePointCorrectionReady) ∧ encode (.getSinglePointCorrectionReady) = 0x3100000000#40 := by decide
theorem test_decode_openSelfCalibration : decodeTableWord 40 0x3200000000 = some (.openSelfCalibration) ∧ encode (.openSelfCalibration) = 0x3200000000#40 := by decide
theorem test_decode_closeSelfCalibration : decodeTableWord 40 0x3300000000 = some (.closeSelfCalibration) ∧ encode (.closeSelfCalibration) = 0x3300000000#40 := by decide
theorem test_decode_getSelfCalibrationStatus : decodeTableWord 40 0x3400000000 = some (.getSelfCalibrationStatus) ∧ encode (.getSelfCalibrationStatus) = 0x3400000000#40 := by decide
theorem test_decode_setSelfCalibrationHours : decodeTableWord 40 0x35000002D1 = some (.setSelfCalibrationHours 721) ∧ encode (.setSelfCalibrationHours 721) = 0x35000002D1#40 := by decide
theorem test_decode_getSelfCalibrationHours : decodeTableWord 40 0x3600000000 = some (.getSelfCalibrationHours) ∧ encode (.getSelfCalibrationHours) = 0x3600000000#40 := by decide
theorem test_decode_setTimeout : decodeTableWord 40 0x40FFFFFFFF = some (.setTimeout 0xFFFFFFFF) ∧ encode (.setTimeout 0xFFFFFFFF) = 0x40FFFFFFFF#40 := by decide
theorem test_decode_getTimeout : decodeTableWord 40 0x4100000000 = some (.getTimeout) ∧ encode (.getTimeout) = 0x4100000000#40 := by decide
theorem test_decode_suppressError : decodeTableWord 40 0x4200000001 = some (.suppressError true) ∧ encode (.suppressError true) = 0x4200000001#40 := by decide
theorem test_decode_getSuppressError : decodeTableWord 40 0x4300000000 = some (.getSuppressError) ∧ encode (.getSuppressError) = 0x4300000000#40 := by decide
theorem test_decode_lastRead : decodeTableWord 40 0x4400000000 = some (.lastRead) ∧ encode (.lastRead) = 0x4400000000#40 := by decide
theorem test_decode_getType : decodeTableWord 40 0x4500000000 = some (.getType) ∧ encode (.getType) = 0x4500000000#40 := by decide
theorem test_decode_lastError : decodeTableWord 40 0x4600000000 = some (.lastError) ∧ encode (.lastError) = 0x4600000000#40 := by decide
theorem test_decode_crc16 : decodeTableWord 40 0x5000000018 = some (.crc16 24) ∧ encode (.crc16 24) = 0x5000000018#40 := by decide
theorem test_decode_request : decodeTableWord 40 0x5100000807 = some (.request 8 7) ∧ encode (.request 8 7) = 0x5100000807#40 := by decide
theorem test_decode_wrbuf : decodeTableWord 40 0x52000017AA = some (.wrbuf 23 0xAA) ∧ encode (.wrbuf 23 0xAA) = 0x52000017AA#40 := by decide
theorem test_decode_rdbuf : decodeTableWord 40 0x5300000017 = some (.rdbuf 23) ∧ encode (.rdbuf 23) = 0x5300000017#40 := by decide

/-! ### Illegal words (R67; spec/95 section 7) -/

theorem test_illegal_opcodes :
    [0x0000000000, 0x0300000000, 0x1500000000, 0x4700000000, 0x5400000000, 0xFF00000000].map (decodeTableWord 40) =
      [none, none, none, none, none, none] := by decide
theorem test_illegal_operands :
    [0x1000000001, 0x4100000100, 0x0100000140, 0x11000001F7, 0x4200000002, 0x3000010190].map (decodeTableWord 40) =
      [none, none, none, none, none, none] := by decide
theorem test_illegal_wide_operands :
    [0x3500010018, 0x5000000100, 0x5100010807, 0x5200010000, 0x5300000100].map (decodeTableWord 40) =
      [none, none, none, none, none] := by decide
theorem test_illegal_reason : decode 0x4200000002#40 = .error (.mustBeZeroBitSet 0x42) ∧
    decode 0x1500000000#40 = .error (.unallocatedOpcode 0x15) := by decide

/-! ### The CRC unit (spec/95 section 3) -/

theorem test_crc_vectors : crc16 [] = 0xFFFF ∧ crc16 [0x00] = 0x40BF ∧ crc16 [0xFE] = 0xC03E ∧ crc16 [0x31, 0x32] = 0xF595 ∧
    crc16 [0x31, 0x32, 0x33, 0x34, 0x35, 0x36, 0x37, 0x38, 0x39] = 0x4B37 := by decide
theorem test_crc_modbus : crc16 [0x01, 0x03, 0, 0, 0, 0x01] = 0x0A84 ∧ crc16 [0xFE, 0x03, 0, 0x14, 0, 0x01] = 0x01D0 ∧
    crc16 [0xFE, 0x03, 0, 0x14, 0, 0x01, 0xD0, 0x01] = 0 := by decide
theorem test_crc_long : crc16 (List.replicate 24 0) = 0xF77A ∧ crc16 (List.replicate 24 0xFF) = 0x844E := by
  decide +kernel
theorem test_crc_formula : crcFormula 0x3D = 0xD1C1 ∧ crcFormula 0x80 = 0xA001 ∧ crcFormula 0xFE = 0x8081 ∧
    crcFormula 0xFF = 0x4040 := by decide
theorem test_crc_tables : hiEntry 0x80 = 0x01 ∧ loEntry 0x80 = 0xA0 ∧ hiEntry 0xCE = 0x81 ∧ loEntry 0x95 = 0x6F := by decide

/-! ### One command each (spec/95 sections 1 and 4 to 8, with the fixture) -/

/-- CF3, CF4. -/
theorem test_beginAddr : (after (execBeginAddr 247 (start 0 [] 0)) (start 0 [] 0)).addr = 0xF7 ∧
    (after (execBeginAddr 248 (start 0 [] 0)) (start 0 [] 0)).addr = 1 ∧
    outcome (after (execBeginAddr 248 (start 0 [] 0)) (start 0 [] 0)) = (0, 1) := by decide

/-- CF22. -/
theorem test_isConnected : execIsConnected (start 0 [] 0) = .refused .connectionQuery := rfl

/-- X9. -/
theorem test_getAddress :
    let t := runGetAddress fixture { startWith 0 [] (still 7 ++ [move 3 [0x40, 3, 2, 0x40, 0, 0x11, 0x22]]) with
      specific := true, addr := 0x40 }
    outcome t = (0x40, 0) ∧ t.addr = 0x40 ∧ t.txlog = [0x40, 0xA0, 0, 0, 0, 1, 0x4F, 0x02] := by decide

/-- S6. -/
theorem test_getAddress_silent :
    let t := runGetAddress fixture (start 100 [] 50)
    outcome t = (0xFF, 2) ∧ t.moveCount = 11 ∧ t.txlog = [0xFE, 0xA0, 0, 0, 0, 1, 0x54, 0x1C] := by decide

/-- P4 step 5. -/
theorem test_setAddress :
    let t := runSetAddress fixture 247 { startWith 400 [] (still 8 ++ [move 0 [1, 0xA1, 0, 0, 0, 1, 0xF7, 0x99]]) with
      specific := true }
    outcome t = (1, 0) ∧ t.addr = 0xF7 ∧ t.txlog = [1, 0xA1, 0, 0, 0, 1, 0xF7, 0x52, 0xA7] := by decide

/-- P4 steps 2 and 4. -/
theorem test_setAddress_fails :
    let t := runSetAddress fixture 247 (start 100 [] 20)
    outcome t = (0, 2) ∧ t.addr = 1 ∧ t.moveCount = 15 ∧ t.clock = 400 ∧
      outcome (runSetAddress fixture 248 (start 100 [] 20)) = (0, 1) ∧
      (runSetAddress fixture 248 (start 100 [] 20)).txlog = [] := by decide

/-- CF8. -/
theorem test_setGenericAddress :
    let t := after (execSetGenericAddress { start 0 [] 0 with specific := true }) (start 0 [] 0)
    t.specific = false ∧ t.addr = 1 ∧ outcome t = (0, 0) := by decide

/-- CF6. -/
theorem test_setSpecificAddress :
    let t := after (execSetSpecificAddress (start 0 [] 0)) (start 0 [] 0)
    t.specific = true ∧ outcome t = (0, 0) := by decide

/-- CF7, CF9. -/
theorem test_useSpecificAddress :
    outcome (after (execUseSpecificAddress { start 0 [] 0 with specific := true }) (start 0 [] 0)) = (1, 0) ∧
    outcome (after (execUseSpecificAddress (start 0 [] 0)) (start 0 [] 0)) = (0, 0) := by decide

/-- O-APR-1 and S6. -/
theorem test_getAirPressureReference :
    let t := runGetAirPressureReference fixture (start 100000 [0xFE, 0x68, 0, 0, 0, 0x40, 0x7D, 0, 7, 0x81] 0)
    let u := runGetAirPressureReference fixture (start 50000 [] 50)
    outcome t = (0x007D4000, 0) ∧ t.airp = 0x007D4000 ∧ t.lastread = 100000 ∧
      t.txlog = [0xFE, 0xA2, 0, 0, 0, 2, 0x6D, 0xDD] ∧ outcome u = (0xC479C000, 2) ∧ u.lastread = 50000 ∧ u.airp = 0 := by
  decide

/-- O-RL-5 and O-RL-6: the window across the Clock's wrap, and a cached return. -/
theorem test_getAirPressureReference_window :
    let s := { start 0xE9F [1, 2, 3, 4, 5, 6, 7, 8, 9, 10] 0 with lastread := 0xFFFFFF00, airp := 77 }
    let u := { start 0xEA0 [1, 2, 3, 4, 5, 6, 7, 8, 9, 10] 0 with lastread := 0xFFFFFF00, airp := 77 }
    outcome (runGetAirPressureReference fixture s) = (77, 0) ∧ (runGetAirPressureReference fixture s).txlog = [] ∧
      outcome (runGetAirPressureReference fixture u) = (0x00070605, 0) ∧
      (runGetAirPressureReference fixture u).lastread = 0xEA0 := by decide

/-- S5: the two bounds and just outside them. -/
theorem test_setAirPressureReference :
    let t := runSetAirPressureReference fixture 0x44898000 (start 0 (List.replicate 10 9) 0)
    outcome t = (1, 0) ∧ t.txlog = [0xFE, 0xA3, 0, 0, 0, 0x80, 0x89, 0x44, 0x3B, 0x82] ∧ t.airp = 0 ∧
      outcome (runSetAirPressureReference fixture 0x44898001 (start 0 [] 0)) = (0, 1) ∧
      outcome (runSetAirPressureReference fixture 0x442EFFFF (start 0 [] 0)) = (0, 1) := by decide

/-- O-SAP-3, O-SAP-6, O-SAP-8. -/
theorem test_setAirPressureReference_fails :
    let t := runSetAirPressureReference fixture 0x447D5000 (start 0 [] 60)
    outcome t = (0, 2) ∧ t.txlog = [0xFE, 0xA3, 0, 0, 0, 0x50, 0x7D, 0x44, 0x7C, 0xBB] ∧
      outcome (runSetAirPressureReference fixture 0x7FC00000 (start 0 [] 0)) = (0, 1) ∧
      outcome (runSetAirPressureReference fixture 0xC42F0000 (start 0 [] 0)) = (0, 1) := by decide

/-- O-GAS-1. -/
theorem test_getGasConcentration :
    let t := runGetGasConcentration fixture (start 100000 [0xFE, 0x69, 8, 0, 0xB0, 4, 0, 0, 0, 0, 0, 0, 0xD1, 0x17] 0)
    outcome t = (0x4B0, 0) ∧ t.gas = 0x4B0 ∧ t.lastread = 100000 ∧ t.txlog = [0xFE, 0xA4, 0, 0, 0, 3, 0x24, 0x1D] := by
  decide

/-- O-GAS-3 (byte 11 not zero) and a cached return at elapsed 3999 (O-RL-1). -/
theorem test_getGasConcentration_fails :
    let s := start 100000 [0xFE, 0x69, 8, 0, 0x10, 0x27, 0, 0, 0, 0, 0, 0x80, 0x98, 0x6D] 0
    let t := runGetGasConcentration fixture { s with gas := 0x4B0 }
    outcome t = (0, 3) ∧ t.gas = 0x4B0 ∧ t.lastread = 100000 ∧
      outcome (runGetGasConcentration fixture { s with gas := 0x4B0, lastread := 96001 }) = (0x4B0, 0) := by decide

/-- O-SPC-3, O-SPC-4. -/
theorem test_setSinglePointCorrection :
    let t := runSetSinglePointCorrection fixture 5000 (start 0 [0, 0, 0, 0, 0, 0, 0, 1, 0, 0] 0)
    outcome t = (1, 0) ∧ t.txlog = [0xFE, 0xA5, 0, 0, 0x88, 0x13, 0, 0x91, 0x20] ∧
      outcome (runSetSinglePointCorrection fixture 5001 (start 0 [] 0)) = (0, 1) := by decide

/-- O-SPC-5, O-SPC-1. -/
theorem test_setSinglePointCorrection_fails :
    outcome (runSetSinglePointCorrection fixture 1000 (start 0 [1, 1, 1, 1, 1, 1, 1, 0, 1, 1] 0)) = (0, 3) ∧
      outcome (runSetSinglePointCorrection fixture 399 (start 0 [] 0)) = (0, 1) := by decide

theorem test_getSinglePointCorrectionReady :
    outcome (runGetSinglePointCorrectionReady fixture (start 0 [0xFE, 0xA6, 1, 0, 0, 0] 0)) = (1, 0) ∧
    outcome (runGetSinglePointCorrectionReady fixture (start 0 [0xFE, 0xA6, 1, 1, 0, 0] 0)) = (0, 0) ∧
    outcome (runGetSinglePointCorrectionReady fixture (start 0 [] 50)) = (0, 2) := by decide

/-- X2: elapsed exactly `TIMEOUT` passes the check. -/
theorem test_openSelfCalibration :
    let t := runOpenSelfCalibration fixture (startWith 1000 [1, 2, 3, 4, 5, 6] (still 7 ++ [move 100 []]))
    outcome t = (1, 0) ∧ t.moveCount = 12 ∧ t.txlog = [0xFE, 0xA7, 0, 1, 0x41, 0xEF] := by decide

/-- X3: one more, and the exchange times out with two bytes collected. -/
theorem test_openSelfCalibration_late :
    let t := runOpenSelfCalibration fixture (startWith 1000 [1, 2, 3, 4, 5, 6] (still 7 ++ [move 101 []]))
    outcome t = (0, 2) ∧ t.moveCount = 8 ∧ t.rxn = 2 ∧ t.rxq = [3, 4, 5, 6] ∧ t.bytes .respbuf 2 = [1, 2] := by decide

/-- X4 on this command: the last byte before a long pause. -/
theorem test_closeSelfCalibration :
    let t := runCloseSelfCalibration fixture (startWith 1000 [1, 2, 3, 4, 5, 6] (still 11 ++ [move 5000 []]))
    outcome t = (1, 0) ∧ t.txlog = [0xFE, 0xA7, 0, 0, 0x80, 0x2F] := by decide

/-- X8: stale bytes frame the response wrongly. -/
theorem test_getSelfCalibrationStatus :
    let t := runGetSelfCalibrationStatus fixture
      (startWith 1000 [0xAA, 0xBB] (still 5 ++ [move 0 [0xFE, 0xA8, 1, 1, 0x11, 0x22]]))
    outcome t = (0xA8, 0) ∧ t.bytes .respbuf 6 = [0xAA, 0xBB, 0xFE, 0xA8, 1, 1] ∧ t.rxq = [0x11, 0x22] := by decide

theorem test_getSelfCalibrationStatus_silent :
    outcome (runGetSelfCalibrationStatus fixture (start 0 [] 50)) = (2, 2) := by decide

/-- O-SH-3, O-SH-4. -/
theorem test_setSelfCalibrationHours :
    let t := runSetSelfCalibrationHours fixture 720 (start 0 [1, 1, 1, 0, 1, 1] 0)
    outcome t = (1, 0) ∧ t.txlog = [0xFE, 0xA9, 0, 0, 0xD0, 2, 0x95, 0xDC] ∧
      outcome (runSetSelfCalibrationHours fixture 721 (start 0 [] 0)) = (0, 1) := by decide

/-- O-SH-5, O-SH-1. -/
theorem test_setSelfCalibrationHours_fails :
    outcome (runSetSelfCalibrationHours fixture 168 (start 0 [0, 0, 0, 1, 0, 0] 0)) = (0, 3) ∧
      outcome (runSetSelfCalibrationHours fixture 23 (start 0 [] 0)) = (0, 1) := by decide

theorem test_getSelfCalibrationHours :
    let t := runGetSelfCalibrationHours fixture (start 0 [0xFE, 0xAA, 2, 0xD0, 2, 0, 0, 0, 0] 0)
    outcome t = (720, 0) ∧ t.txlog = [0xFE, 0xAA, 0, 0, 0x11, 0xEC] ∧
      outcome (runGetSelfCalibrationHours fixture (start 0 [] 50)) = (0xFFFF, 2) := by decide

/-- CF12. -/
theorem test_setTimeout :
    let t := after (execSetTimeout 0xFFFFFFFF (start 0 [] 0)) (start 0 [] 0)
    t.timeout = 0xFFFFFFFF ∧ outcome t = (0, 0) := by decide

/-- CF10. -/
theorem test_getTimeout : outcome (after (execGetTimeout (start 0 [] 0)) (start 0 [] 0)) = (100, 0) := by decide

/-- CF13. -/
theorem test_suppressError :
    let t := after (execSuppressError true (start 0 [] 0)) (start 0 [] 0)
    t.suppress = true ∧ outcome t = (0, 0) := by decide

/-- CF14. -/
theorem test_getSuppressError :
    outcome (after (execGetSuppressError { start 0 [] 0 with suppress := true }) (start 0 [] 0)) = (1, 0) := by decide

/-- P3 step 2. -/
theorem test_lastRead :
    outcome (after (execLastRead { start 0 [] 0 with lastread := 10000 }) (start 0 [] 0)) = (0x2710, 0) := by decide

/-- CF16. -/
theorem test_getType : outcome (runGetType fixture { start 0 [] 0 with status := 3 }) = (2, 0) := by decide

/-- CF17, CF18: `STATUS` is returned and not cleared. -/
theorem test_lastError :
    outcome (after (execLastError { start 0 [] 0 with status := 2 }) (start 0 [] 0)) = (2, 2) := by decide

/-- CF21: `TXBUF` = 00 01 ... 17. -/
theorem test_crc16 :
    let t := after (execCrc16 24 { start 0 [] 0 with txbuf := (List.range 24).map fun k => (k, BitVec.ofNat 8 k) })
      (start 0 [] 0)
    outcome t = (0x6F41, 0) ∧ t.crchi = 0x6F ∧ t.crclo = 0x41 := by decide +kernel

theorem test_crc16_25 : outcome (after (execCrc16 25 (start 0 [] 0)) (start 0 [] 0)) = (0, 4) := by decide

/-- X6. -/
theorem test_request_no_response :
    let t := after (execRequest 4 0 { start 0 [] 0 with txbuf := [(0, 0), (1, 0x11), (2, 0), (3, 0)] }) (start 0 [] 0)
    outcome t = (1, 0) ∧ t.txlog = [0xFE, 0x11, 0x81, 0xDC] ∧ t.moveCount = 4 ∧ t.rxn = 0 ∧ t.respbuf = [] := by decide

/-- X10: a byte at a time. -/
theorem test_request_paced :
    let s := { startWith 5000 [] (List.replicate 7 (move 1 []) ++ [move 2 [0xFE], move 10 [3], move 10 [2], move 10 [0],
        move 10 [0x40], move 10 [0xAD], move 10 [0xA0]]) with
      txbuf := [(0, 0), (1, 3), (2, 0), (3, 0x14), (4, 0), (5, 1), (6, 0), (7, 0)] }
    let t := after (execRequest 8 7 s) s
    outcome t = (1, 0) ∧ t.tstart = 5009 ∧ t.clock = 5069 ∧ t.moveCount = 15 ∧
      t.txlog = [0xFE, 3, 0, 0x14, 0, 1, 0xD0, 1] ∧ t.bytes .respbuf 7 = [0xFE, 3, 2, 0, 0x40, 0xAD, 0xA0] := by decide

/-- CF19 and its illegal neighbour. -/
theorem test_wrbuf :
    let t := after (execWrbuf 23 0xAA (start 0 [] 0)) (start 0 [] 0)
    t.memRead .txbuf 23 = 0xAA ∧ outcome t = (0, 0) ∧
      outcome (after (execWrbuf 24 0 (start 0 [] 0)) (start 0 [] 0)) = (0, 4) := by decide

/-- CF20 and its illegal neighbour. -/
theorem test_rdbuf :
    let s := { start 0 [] 0 with respbuf := [(23, 0x97)] }
    outcome (after (execRdbuf 23 s) s) = (0x97, 0) ∧ outcome (after (execRdbuf 24 s) s) = (0, 4) := by decide

/-! ### The step -/

/-- Whether an answer is a next state. -/
def isNext (a : Answer) : Bool := match a with | .next _ => true | _ => false

/-- The first command after reset runs: words of commands without, with failing and with live exchanges. -/
theorem test_step_from_reset :
    [0x01000000F7, 0x1000000000, 0x2200000000, 0x2144898000, 0x3600000000, 0x5100000807, 0x5300000017].map
      (fun w => isNext (step (State.reset.withFetchWord 40 w))) = List.replicate 7 true := by decide

/-- `ISCONNECTED` from reset. -/
theorem test_step_isConnected : step (State.reset.withFetchWord 40 0x0200000000) = .refused .connectionQuery := rfl

/-- An illegal word (R67). -/
theorem test_step_illegal : outcome (after (step ((start 0 [] 0).withFetchWord 40 0x1500000000)) (start 0 [] 0)) = (0, 4) := by
  decide

/-- A step ends in the receive loop when the scripted moves are used up, and the next one goes on with it (log 1). -/
theorem test_step_resumes :
    let s := { State.afterReset 0 1000 [] (still 5) (List.replicate 40 0) 0 0 [] with
      txbuf := [(0, 0), (1, 0x11), (2, 0), (3, 0)] }
    let t := after (step (s.withFetchWord 40 0x5100000402)) s
    let u := after (step { t with clock := 1000, rxq := [7, 8], moves := still 3, inputs := [.command 0x4100000000] }) s
    t.busy = true ∧ t.phase = .rx ∧ t.rxn = 0 ∧ outcome u = (1, 0) ∧ u.busy = false ∧ u.bytes .respbuf 2 = [7, 8] ∧
      u.inputs = [.command 0x4100000000] := by decide

/-- The reset input leaves the Clock and `RXQ` (R240, R241). -/
theorem test_step_reset :
    let s := { start 5 [1] 0 with timeout := 7, specific := true, txlog := [1], busy := true, inputs := [.reset] }
    let t := after (step s) s
    t.timeout = 100 ∧ t.specific = false ∧ t.txlog = [] ∧ t.busy = false ∧ t.clock = 5 ∧ t.rxq = [1] := by decide

/-! ### The hypotheses of the statements can be met

One theorem a statement with hypotheses, named after it; each gives a state and operands that meet them, clause by
clause. `answering` is an environment that answers, `mute` one that does not; the lemmas before hold for every command
length that the open parameters allow. -/

/-- A response to either reading command. -/
def reply : List Byte := [0xFE, 0x69, 8, 0, 0xB0, 4, 0, 0, 0, 0, 0, 0, 0xD1, 0x17]

/-- A response without a zero byte. -/
def garble : List Byte := List.replicate 14 1

/-- A state in which every exchange of up to 14 response bytes succeeds. -/
def answering (clock : Time) : State := start clock reply 0

/-- The same, with the response without a zero byte. -/
def garbling (clock : Time) : State := start clock garble 0

/-- A state in which an exchange of `cl` bytes out and `n` back succeeds, no response byte being there when the receive
loop begins and one arriving with each of its yields (as in X10). -/
def pacing (clock : Time) (cl n : Nat) : State := startWith clock [] (still cl ++ List.replicate n (move 5 [0]))

/-- A state in which every exchange with an awaited response times out: nothing arrives. -/
def mute (clock : Time) : State := start clock [] 101

/-- A state in which every exchange that awaits two bytes or more times out although all of them are there (X3). -/
def tardy (clock : Time) : State := start clock reply 101

theorem drifts_zero (n : Nat) : ∀ l : List Time, (∀ d ∈ l, d = 0) → ((l.take n).map BitVec.toNat).sum = 0 := by
  intro l h
  induction n generalizing l with
  | zero => rfl
  | succ n ih =>
    cases l with
    | nil => rfl
    | cons d l =>
      rw [List.take_succ_cons, List.map_cons, List.sum_cons, h d (List.mem_cons_self ..),
        ih l fun x hx => h x (List.mem_cons_of_mem _ hx)]
      rfl

/-- Where the Clock stands still at samples, only the moves count. -/
theorem waited_of {s : State} {k : Nat} (hd : s.drifts = List.replicate k 0) (cl i : Nat) :
    s.waited cl i = (((s.moves.drop cl).take i).map fun m => m.advance.toNat).sum := by
  unfold State.waited
  rw [hd, List.drop_replicate, drifts_zero _ _ fun d h => List.eq_of_mem_replicate h, Nat.add_zero]

theorem takenOf_eq {f : Nat → Nat} (n : Nat) (h : ∀ i, n ≤ f i) : ∀ k, k ≤ n → takenOf f k = k := by
  intro k
  induction k with
  | zero => intro _; rfl
  | succ k ih =>
    intro hk
    have := h k
    rw [takenOf, ih (by omega), if_pos (by omega)]

theorem takenOf_paced {f : Nat → Nat} (n : Nat) (h : ∀ i, i ≤ n → f i = i) : ∀ k, k ≤ n → takenOf f (k + 1) = k := by
  intro k
  induction k with
  | zero => intro hk; simp [takenOf, h 0 hk]
  | succ k ih =>
    intro hk
    rw [takenOf, ih (by omega), h (k + 1) hk, if_pos (by omega)]

theorem taken_ready {s : State} (cl k : Nat) (h : k ≤ s.rxq.length) : s.taken cl k = k :=
  takenOf_eq k (fun i => by unfold State.arrivals; rw [List.length_append]; omega) k (le_refl k)

/-- What an exchange finds in `answering` and `garbling`, also after the commands' first stages. -/
theorem prompt_of {s : State} (hm : s.moves = (start 0 [] 0).moves) (hd : ∃ k, 20 ≤ k ∧ s.drifts = List.replicate k 0)
    (hq : 14 ≤ s.rxq.length) (cl n : Nat) (hc : cl ≤ 24) (hn : n ≤ 14) : Prompt s cl n := by
  obtain ⟨k, hk, hd⟩ := hd
  have hlen : (start 0 [] 0).moves.length = 70 := by decide
  have hz : ∀ m ∈ (start 0 [] 0).moves, m.advance = 0 := by decide
  refine ⟨n, by rw [hm, hlen]; omega, by rw [hd, List.length_replicate]; omega, fun i _ => ?_, taken_ready cl n (by omega)⟩
  have h0 : (((s.moves.drop cl).take i).map fun m => m.advance.toNat) =
      ((s.moves.drop cl).take i).map fun _ => 0 :=
    List.map_congr_left fun m h => by
      rw [hz m (hm ▸ List.mem_of_mem_drop (List.mem_of_mem_take h))]; rfl
  rw [waited_of hd, h0]
  simp

theorem prompt_answering (clock : Time) (cl n : Nat) (hc : cl ≤ 24) (hn : n ≤ 14) : Prompt (answering clock) cl n :=
  prompt_of (s := answering clock) rfl ⟨40, by decide, rfl⟩ (by show 14 ≤ reply.length; decide) cl n hc hn

theorem prompt_garbling (clock : Time) (cl n : Nat) (hc : cl ≤ 24) (hn : n ≤ 14) : Prompt (garbling clock) cl n :=
  prompt_of (s := garbling clock) rfl ⟨40, by decide, rfl⟩ (by show 14 ≤ garble.length; decide) cl n hc hn

theorem prompt_answering_sample (clock : Time) (cl n : Nat) (hc : cl ≤ 24) (hn : n ≤ 14) :
    Prompt (answering clock).sample cl n :=
  prompt_of (s := (answering clock).sample) rfl ⟨39, by decide, rfl⟩ (by show 14 ≤ reply.length; decide) cl n hc hn

theorem prompt_garbling_sample (clock : Time) (cl n : Nat) (hc : cl ≤ 24) (hn : n ≤ 14) :
    Prompt (garbling clock).sample cl n :=
  prompt_of (s := (garbling clock).sample) rfl ⟨39, by decide, rfl⟩ (by show 14 ≤ garble.length; decide) cl n hc hn

/-- What an exchange finds in `pacing`, also after the commands' first stages. -/
theorem paced_of {s : State} (cl n : Nat) (hm : s.moves = (pacing 0 cl n).moves)
    (hd : ∃ k, 20 ≤ k ∧ s.drifts = List.replicate k 0) (hq : s.rxq = []) (ht : s.timeout = 100)
    (hn : n ≤ 14) : Prompt s cl n := by
  obtain ⟨k, hk, hd⟩ := hd
  have hmv : s.moves = List.replicate cl (move 0 []) ++ (List.replicate n (move 5 [0]) ++ List.replicate 30 (move 0 [])) := by
    rw [hm, ← List.append_assoc]; rfl
  refine ⟨n + 1, by rw [hmv]; simp, by rw [hd, List.length_replicate]; omega, fun i hi => ?_, ?_⟩
  · rw [waited_of hd, hmv, List.drop_left' (by simp),
      List.take_append_of_le_length (by rw [List.length_replicate]; omega), List.take_replicate, List.map_replicate,
      List.sum_replicate, ht, Nat.min_eq_left (by omega)]
    exact Nat.le_trans (Nat.mod_le (i * 5) _) (by show i * 5 ≤ 100; omega)
  · refine takenOf_paced n (fun i hi => ?_) n (le_refl n)
    have hone : ∀ j, (List.replicate j (move 5 [0])).flatMap Move.bytes = List.replicate j 0 := by
      intro j
      induction j with
      | zero => rfl
      | succ j ih => rw [List.replicate_succ, List.flatMap_cons, ih]; rfl
    have hnone : ∀ j, (List.replicate j (move 0 [])).flatMap Move.bytes = [] := by
      intro j
      induction j with
      | zero => rfl
      | succ j ih => rw [List.replicate_succ, List.flatMap_cons, ih]; rfl
    unfold State.arrivals
    rw [hq, hmv, List.nil_append, List.take_append, List.length_replicate, Nat.add_sub_cancel_left,
      List.take_append_of_le_length (by simpa using hi), List.take_replicate, List.take_replicate, List.flatMap_append,
      hnone, hone, List.nil_append, List.length_replicate]
    omega

theorem prompt_pacing (clock : Time) (cl n : Nat) (hn : n ≤ 14) : Prompt (pacing clock cl n) cl n :=
  paced_of (s := pacing clock cl n) cl n rfl ⟨40, by decide, rfl⟩ rfl rfl hn

theorem prompt_pacing_sample (clock : Time) (cl n : Nat) (hn : n ≤ 14) : Prompt (pacing clock cl n).sample cl n :=
  paced_of (s := (pacing clock cl n).sample) cl n rfl ⟨39, by decide, rfl⟩ rfl rfl hn

/-- What an exchange finds in `mute` and `tardy`, also after the commands' first stages: the second deadline check finds
the time run out, with `k` bytes taken. -/
theorem tooLate_of {s : State} (hm : s.moves = (mute 0).moves) (hd : ∃ k, 20 ≤ k ∧ s.drifts = List.replicate k 0)
    (ht : s.timeout = 100) (cl n k : Nat) (hc : cl ≤ 24) (hk : s.taken cl 1 = k) (hn : k < n) : TooLate s cl n k := by
  obtain ⟨d, hd20, hd⟩ := hd
  have hlen : s.moves.length = 70 := by rw [hm]; decide
  have hfirst : ∀ c ≤ 24, (((mute 0).moves.drop c).take 1).map (fun m => m.advance.toNat) = [101] := by decide
  refine ⟨hn, 1, ⟨by omega, by rw [hd, List.length_replicate]; omega, fun i hi => ?_, hk⟩,
    by rw [hd, List.length_replicate]; omega, ?_⟩
  · obtain rfl : i = 0 := by omega
    rw [waited_of hd]
    exact Nat.zero_le _
  · rw [waited_of hd, hm, hfirst cl hc, ht]
    decide

theorem taken_mute (s : State) (hm : s.moves = (mute 0).moves) (hq : s.rxq = []) (cl : Nat) : s.taken cl 1 = 0 := by
  have h : ∀ j, ((mute 0).moves.take j).flatMap Move.bytes = [] := fun j =>
    List.flatMap_eq_nil_iff.2 fun m hmem => (show ∀ m ∈ (mute 0).moves, m.bytes = [] by decide) m (List.mem_of_mem_take hmem)
  unfold State.taken State.arrivals
  rw [hq, hm]
  simp only [h]
  rfl

theorem tooLate_mute (clock : Time) (cl n : Nat) (hc : cl ≤ 24) (hn : 0 < n) : TooLate (mute clock) cl n 0 :=
  tooLate_of (s := mute clock) rfl ⟨40, by decide, rfl⟩ rfl cl n 0 hc (taken_mute _ rfl rfl cl) hn

theorem tooLate_mute_sample (clock : Time) (cl n : Nat) (hc : cl ≤ 24) (hn : 0 < n) :
    TooLate (mute clock).sample cl n 0 :=
  tooLate_of (s := (mute clock).sample) rfl ⟨39, by decide, rfl⟩ rfl cl n 0 hc (taken_mute _ rfl rfl cl) hn

theorem tooLate_tardy (clock : Time) (cl n : Nat) (hc : cl ≤ 24) (hn : 1 < n) : TooLate (tardy clock) cl n 1 :=
  tooLate_of (s := tardy clock) rfl ⟨40, by decide, rfl⟩ rfl cl n 1 hc (taken_ready cl 1 (by show 1 ≤ reply.length; decide)) hn

theorem tooLate_tardy_sample (clock : Time) (cl n : Nat) (hc : cl ≤ 24) (hn : 1 < n) :
    TooLate (tardy clock).sample cl n 1 :=
  tooLate_of (s := (tardy clock).sample) rfl ⟨39, by decide, rfl⟩ rfl cl n 1 hc
    (taken_ready cl 1 (by show 1 ≤ reply.length; decide)) hn

/-- The four environments: an answer before the receive loop, one during it, none, and one that is too late. -/
theorem four_environments (op : SensorOp) (n : Nat) (h1 : 1 < n) (hn : n ≤ 14) :
    Prompt (answering 0) (Config.params.cmdLen op) n ∧
      Prompt (pacing 0 (Config.params.cmdLen op) n) (Config.params.cmdLen op) n ∧
      TooLate (mute 0) (Config.params.cmdLen op) n 0 ∧ TooLate (tardy 0) (Config.params.cmdLen op) n 1 :=
  have hc := Config.params.cmdLen_le op
  ⟨prompt_answering _ _ _ hc hn, prompt_pacing _ _ _ hn, tooLate_mute _ _ _ hc (by omega), tooLate_tardy _ _ _ hc h1⟩

/-- The same for the reading commands, at 4000 ms after `LASTREAD`. -/
theorem four_environments_sample (op : SensorOp) (n : Nat) (h1 : 1 < n) (hn : n ≤ 14) :
    Prompt (answering 4000).sample (Config.params.cmdLen op) n ∧
      Prompt (pacing 4000 (Config.params.cmdLen op) n).sample (Config.params.cmdLen op) n ∧
      TooLate (mute 4000).sample (Config.params.cmdLen op) n 0 ∧
      TooLate (tardy 4000).sample (Config.params.cmdLen op) n 1 :=
  have hc := Config.params.cmdLen_le op
  ⟨prompt_answering_sample _ _ _ hc hn, prompt_pacing_sample _ _ _ hn, tooLate_mute_sample _ _ _ hc (by omega),
    tooLate_tardy_sample _ _ _ hc h1⟩

theorem arrivals_start (clock : Time) (q : List Byte) (adv : Time) :
    (start clock q adv).arrivals (start clock q adv).moves.length = q := by
  unfold State.arrivals
  rw [List.take_length, List.flatMap_eq_nil_iff.2, List.append_nil]
  · rfl
  · intro m hmem
    have : m ∈ List.replicate 40 (move adv []) ∨ m ∈ List.replicate 30 (move 0 []) := List.mem_append.1 hmem
    rcases this with h | h <;> (rw [List.eq_of_mem_replicate h]; rfl)

theorem cmdLen_four_le (op : SensorOp) : 4 ≤ Config.params.cmdLen op :=
  Nat.le_trans (Config.minCmdLen_ge_four op) (Config.params.cmdLen_ge op)

/-- `answering`, with the last read at `last`. -/
def readAt (clock last : Time) : State := { answering clock with lastread := last }

/-- A live read of the gas concentration, whatever the templates are. -/
theorem live_gas (clock last : Time) (h : ¬ clock - last < (4000 : Time)) :
    ∃ t, exec .getGasConcentration (readAt clock last) = .next t ∧ t.busy = false ∧ t.status = 0 ∧
      t.txlog ≠ (readAt clock last).txlog ∧ t.lastread = clock ∧ t.gas = 0x4B0 := by
  obtain ⟨m, hb⟩ := ((readAt clock last).issue .getGasConcentration).sample.admitRead.build_eq Config.params
    .getGasConcentration 0
  generalize hs : ((readAt clock last).issue .getGasConcentration).sample.admitRead.build Config.params
    .getGasConcentration 0 = u at hb
  have hp : Prompt u (Config.params.cmdLen .getGasConcentration) 14 :=
    prompt_of (by rw [hb]; rfl) ⟨39, by decide, by rw [hb]; rfl⟩ (by rw [hb]; show 14 ≤ reply.length; decide) _ _
      (Config.params.cmdLen_le _) (by decide)
  obtain ⟨h1, h2⟩ := u.exchange_prompt _ 14 (cmdLen_four_le _) (Config.params.cmdLen_le _) (by decide) hp
  obtain ⟨-, h3, -⟩ := u.exchange_same (Config.params.cmdLen .getGasConcentration) 14
  have harr : u.arrivals u.moves.length = reply := by
    rw [hb]
    show reply ++ ((answering 0).moves.take (answering 0).moves.length).flatMap Move.bytes = reply
    rw [show ((answering 0).moves.take (answering 0).moves.length).flatMap Move.bytes = [] by decide, List.append_nil]
  have hlive : ((readAt clock last).issue .getGasConcentration).sample.inRateWindow = false :=
    decide_eq_false (by show ¬ clock + 0 - last < (4000 : Time); simpa using h)
  have hlog : (u.exchange (Config.params.cmdLen .getGasConcentration) 14).2.txlog ≠ [] := by
    rw [h2.sent.log]
    intro hnil
    have := congrArg List.length hnil
    have h4 := cmdLen_four_le .getGasConcentration
    simp only [List.length_append, State.bytes_length, List.length_nil] at this
    omega
  have hlast : (u.exchange (Config.params.cmdLen .getGasConcentration) 14).2.lastread = clock := by
    rw [h3.lastread, hb]; exact BitVec.add_zero _
  have hr : ∀ a b, a < 14 → reply[a]? = some b →
      (u.exchange (Config.params.cmdLen .getGasConcentration) 14).2.memRead .respbuf a = b := fun a b ha hb =>
    Option.some_inj.1 ((harr ▸ h2.collected.received a ha).trans hb)
  refine ⟨_, rfl, ?_⟩
  unfold runGetGasConcentration State.sensorExchange
  dsimp only
  rw [hlive, hs]
  simp only [Bool.false_eq_true, if_false, respLen]
  generalize u.exchange (Config.params.cmdLen .getGasConcentration) 14 = r at *
  obtain ⟨o, e⟩ := r
  cases h1
  have hmark : (e.setPhase .decode).gasMarkersZero = true := by
    unfold State.gasMarkersZero
    simp only [State.setPhase_memRead]
    rw [hr 8 0 (by decide) rfl, hr 9 0 (by decide) rfl, hr 10 0 (by decide) rfl, hr 11 0 (by decide) rfl]; rfl
  unfold finishGetGasConcentration conclude
  dsimp only
  rw [hmark, if_pos rfl, State.setPhase_memRead, State.setPhase_memRead, hr 4 0xB0 (by decide) rfl, hr 5 4 (by decide) rfl]
  exact ⟨rfl, rfl, hlog, hlast, by show u16le 0xB0 4 = 0x4B0; decide⟩

/-- A live read of the air pressure, whatever the templates are. -/
theorem live_air (clock last : Time) (h : ¬ clock - last < (4000 : Time)) :
    ∃ t, exec .getAirPressureReference (readAt clock last) = .next t ∧ t.txlog ≠ (readAt clock last).txlog ∧
      t.lastread = clock ∧ t.airp = 0x4B0 := by
  obtain ⟨m, hb⟩ := ((readAt clock last).issue .getAirPressureReference).sample.admitRead.build_eq Config.params
    .getAirPressureReference 0
  generalize hs : ((readAt clock last).issue .getAirPressureReference).sample.admitRead.build Config.params
    .getAirPressureReference 0 = u at hb
  have hp : Prompt u (Config.params.cmdLen .getAirPressureReference) 10 :=
    prompt_of (by rw [hb]; rfl) ⟨39, by decide, by rw [hb]; rfl⟩ (by rw [hb]; show 14 ≤ reply.length; decide) _ _
      (Config.params.cmdLen_le _) (by decide)
  obtain ⟨h1, h2⟩ := u.exchange_prompt _ 10 (cmdLen_four_le _) (Config.params.cmdLen_le _) (by decide) hp
  obtain ⟨-, h3, -⟩ := u.exchange_same (Config.params.cmdLen .getAirPressureReference) 10
  have harr : u.arrivals u.moves.length = reply := by
    rw [hb]
    show reply ++ ((answering 0).moves.take (answering 0).moves.length).flatMap Move.bytes = reply
    rw [show ((answering 0).moves.take (answering 0).moves.length).flatMap Move.bytes = [] by decide, List.append_nil]
  have hlive : ((readAt clock last).issue .getAirPressureReference).sample.inRateWindow = false :=
    decide_eq_false (by show ¬ clock + 0 - last < (4000 : Time); simpa using h)
  have hlog : (u.exchange (Config.params.cmdLen .getAirPressureReference) 10).2.txlog ≠ [] := by
    rw [h2.sent.log]
    intro hnil
    have := congrArg List.length hnil
    have h4 := cmdLen_four_le .getAirPressureReference
    simp only [List.length_append, State.bytes_length, List.length_nil] at this
    omega
  have hlast : (u.exchange (Config.params.cmdLen .getAirPressureReference) 10).2.lastread = clock := by
    rw [h3.lastread, hb]; exact BitVec.add_zero _
  have hr : ∀ a b, a < 10 → reply[a]? = some b →
      (u.exchange (Config.params.cmdLen .getAirPressureReference) 10).2.memRead .respbuf a = b := fun a b ha hb =>
    Option.some_inj.1 ((harr ▸ h2.collected.received a ha).trans hb)
  refine ⟨_, rfl, ?_⟩
  unfold runGetAirPressureReference State.sensorExchange
  dsimp only
  rw [hlive, hs]
  simp only [Bool.false_eq_true, if_false, respLen]
  generalize u.exchange (Config.params.cmdLen .getAirPressureReference) 10 = r at *
  obtain ⟨o, e⟩ := r
  cases h1
  unfold finishGetAirPressureReference conclude
  dsimp only
  rw [hr 4 0xB0 (by decide) rfl, hr 5 4 (by decide) rfl, hr 6 0 (by decide) rfl]
  exact ⟨hlog, hlast, by show f32le3 0xB0 4 0 = 0x4B0; decide⟩

/-- A live read of the gas concentration that times out, whatever the templates are. -/
theorem mute_gas :
    ∃ t, exec .getGasConcentration (mute 4000) = .next t ∧ t.busy = false ∧ t.status = 2 ∧
      t.txlog ≠ (mute 4000).txlog ∧ t.lastread = 4000 := by
  obtain ⟨m, hb⟩ := ((mute 4000).issue .getGasConcentration).sample.admitRead.build_eq Config.params
    .getGasConcentration 0
  generalize hs : ((mute 4000).issue .getGasConcentration).sample.admitRead.build Config.params
    .getGasConcentration 0 = u at hb
  have hmv : u.moves = (mute 0).moves := by rw [hb]; rfl
  have hp : TooLate u (Config.params.cmdLen .getGasConcentration) 14 0 :=
    tooLate_of hmv ⟨39, by decide, by rw [hb]; rfl⟩ (by rw [hb]; rfl) _ _ _ (Config.params.cmdLen_le _)
      (taken_mute u hmv (by rw [hb]; rfl) _) (by decide)
  obtain ⟨h1, h2⟩ := u.exchange_tooLate _ 14 0 (cmdLen_four_le _) (Config.params.cmdLen_le _) (by decide) hp
  obtain ⟨-, h3, -⟩ := u.exchange_same (Config.params.cmdLen .getGasConcentration) 14
  have hlog : (u.exchange (Config.params.cmdLen .getGasConcentration) 14).2.txlog ≠ [] := by
    rw [h2.sent.log]
    intro hnil
    have := congrArg List.length hnil
    have h4 := cmdLen_four_le .getGasConcentration
    simp only [List.length_append, State.bytes_length, List.length_nil] at this
    omega
  have hlast : (u.exchange (Config.params.cmdLen .getGasConcentration) 14).2.lastread = 4000 := by
    rw [h3.lastread, hb]; rfl
  have hlive : ((mute 4000).issue .getGasConcentration).sample.inRateWindow = false := by decide
  refine ⟨_, rfl, ?_⟩
  unfold runGetGasConcentration State.sensorExchange
  dsimp only
  rw [hlive, hs]
  simp only [Bool.false_eq_true, if_false, respLen]
  generalize u.exchange (Config.params.cmdLen .getGasConcentration) 14 = r at *
  obtain ⟨o, e⟩ := r
  cases h1
  exact ⟨rfl, rfl, hlog, hlast⟩

/-- A state in which a `REQUEST 4, 2` waits in its receive loop. -/
def waiting : State :=
  { start 1000 [7] 0 with
    cmd := 0x5100000402, busy := true, phase := .rx, txlen := 4, txi := 4, rxlen := 2, rxn := 0, tstart := 1000
    inputs := [.command 0x4100000000] }

/-- A state in which the exchange of the command with word `w`, awaiting `n` bytes, waits in its receive loop. -/
def waitingFor (w : CommandWord) (n : Byte) : State :=
  { start 1000 reply 0 with
    cmd := w, busy := true, phase := .rx, txlen := 4, txi := 4, rxlen := n, rxn := 0, tstart := 1000 }

theorem waitingFor_resumes (w : CommandWord) (n : Byte) (i : Instr) (h : 0 < n.toNat) (h24 : n.toNat ≤ 24)
    (hd : decode w = .ok i) (hf : (finishOf i).isSome = true) (hv : validated i = true) : Resumes i (waitingFor w n) :=
  ⟨⟨rfl, by show 4 ≤ (4 : Byte).toNat ∧ (4 : Byte).toNat ≤ 24; decide, h24, h, i, hd, hf, hv⟩, rfl, hd,
    fun _ h => by simp [waitingFor, start, startWith, State.afterReset] at h⟩

theorem waiting_resumes : Resumes (.request 4 2) waiting :=
  ⟨⟨rfl, by decide, by decide, by decide, .request 4 2, rfl, rfl, rfl⟩, rfl, rfl, fun _ h => by simp [waiting] at h⟩

theorem start_inv : StateInv (start 0 [] 0) := by
  refine ⟨Memory.wf_nil, Memory.wf_nil, ?_, ?_, ?_, fun _ => rfl, fun h => ?_⟩
  · decide
  · decide
  · decide
  · exact absurd h (by decide)

theorem waiting_inv : StateInv waiting := by
  refine ⟨Memory.wf_nil, Memory.wf_nil, ?_, ?_, ?_, fun h => ?_, fun _ => ⟨rfl, ?_, ?_, ?_, .request 4 2, ?_, rfl, rfl⟩⟩
  · decide
  · decide
  · decide
  · exact absurd h (by decide)
  · decide
  · decide
  · decide
  · decide

theorem test_witness_EveryLegalWordIsItsCommandsEncoding : decode 0x5100000807#40 = .ok (.request 8 7) := by decide

theorem test_witness_DecoderAgreesWithMaskAndMatchRows : decode 0x4200000001#40 = .ok (.suppressError true) ∧
    0x4200000001#40 &&& (rowOf (.suppressError false)).mask = (rowOf (.suppressError false)).value := by decide

theorem test_witness_StepRunsTheDecodedCommand : let s := { start 0 [] 0 with inputs := [.command 0x1000000000] }
    s.busy = false ∧ s.inputs = .command 0x1000000000 :: [] ∧ decode 0x1000000000#40 = .ok .getAddress := by decide

theorem test_witness_PlacedWordIsRunByTheNextStep : decode (commandOfTable 40 0x52000017AA) = .ok (.wrbuf 23 0xAA) := by
  decide

theorem test_witness_IllegalWordRaisesIllegalCommand :
    let s := { start 0 [] 0 with inputs := [.command 0x1500000000] }
    s.busy = false ∧ s.inputs = .command 0x1500000000 :: [] ∧
      ∀ i, 0x1500000000#40 &&& (rowOf i).mask ≠ (rowOf i).value :=
  ⟨rfl, rfl, fun i => by cases i <;> (simp only [rowOf]; decide)⟩

theorem test_witness_IdleStepMovesOnlyTheEnvironment : (start 0 [] 0).busy = false ∧ (start 0 [] 0).inputs = [] := by decide

theorem test_witness_BusyStepResumesTheReceiveLoop :
    waiting.busy = true ∧ waiting.phase = .rx ∧ waiting.rxlen.toNat ≤ 24 ∧ decode waiting.cmd = .ok (.request 4 2) ∧
      finishOf (.request 4 2) = some finishRequest ∧ ∀ rest, waiting.inputs ≠ .reset :: rest :=
  ⟨rfl, rfl, by decide, by decide, rfl, fun _ h => by simp [waiting] at h⟩

theorem test_witness_ResetInputRestoresTheResetValues :
    { waiting with inputs := [.reset] }.inputs = .reset :: [] := rfl

theorem test_witness_EveryStepKeepsTheInvariant :
    (∃ t, StateInv (start 0 [] 0) ∧ step (start 0 [] 0) = .next t) ∧ ∃ t, StateInv waiting ∧ step waiting = .next t :=
  ⟨⟨_, start_inv, rfl⟩, _, waiting_inv, rfl⟩

theorem test_witness_InvariantStatesNeverFault : StateInv waiting ∧ StateInv (start 0 [] 0) := ⟨waiting_inv, start_inv⟩

theorem test_witness_Crc16CommandReturnsTheCrcOfTxbuf : (24 : Byte).toNat ≤ 24 ∧ 24 < (25 : Byte).toNat := by decide

theorem test_witness_WrbufStoresOneByte :
    (23 : Byte).toNat < 24 ∧ (22 : Nat) ≠ (23 : Byte).toNat ∧ 24 ≤ (24 : Byte).toNat := by decide

theorem test_witness_RdbufReturnsOneByte : (23 : Byte).toNat < 24 ∧ 24 ≤ (24 : Byte).toNat := by decide

theorem test_witness_BeginValidatesAndStoresTheAddress : (247 : Byte).toNat ≤ 247 ∧ 247 < (248 : Byte).toNat := by decide

theorem test_witness_RequestExchangesTheFrameInTxbuf :
    ((3 : Byte).toNat < 4 ∧ 24 < (25 : Byte).toNat) ∧
      (4 ≤ (4 : Byte).toNat ∧ (24 : Byte).toNat ≤ 24) ∧
      Prompt (answering 0) (4 : Byte).toNat (14 : Byte).toNat ∧ Prompt (answering 0) (24 : Byte).toNat (0 : Byte).toNat ∧
      Prompt (pacing 0 (8 : Byte).toNat (7 : Byte).toNat) (8 : Byte).toNat (7 : Byte).toNat ∧
      TooLate (mute 0) (4 : Byte).toNat (24 : Byte).toNat 0 ∧ TooLate (mute 0) (24 : Byte).toNat (1 : Byte).toNat 0 ∧
      TooLate (tardy 0) (24 : Byte).toNat (2 : Byte).toNat 1 :=
  ⟨by decide, by decide, prompt_answering _ _ _ (by decide) (by decide), prompt_answering _ _ _ (by decide) (by decide),
    prompt_pacing _ _ _ (by decide), tooLate_mute _ _ _ (by decide) (by decide),
    tooLate_mute _ _ _ (by decide) (by decide), tooLate_tardy _ _ _ (by decide) (by decide)⟩

/-- A deadline check at exactly `TIMEOUT` passes and one a millisecond later does not (X2, X3). -/
theorem test_witness_RequestExchangesTheFrameInTxbuf_boundary :
    Prompt (startWith 1000 [1, 2, 3, 4, 5, 6] (still 7 ++ [move 100 []])) 6 6 ∧
      TooLate (startWith 1000 [1, 2, 3, 4, 5, 6] (still 7 ++ [move 101 []])) 6 6 2 :=
  ⟨⟨6, by decide, by decide, by decide, by decide⟩,
    by decide, 2, ⟨by decide, by decide, by decide, by decide⟩, by decide, by decide⟩

theorem test_witness_FirstTransmittedByteFollowsTheAddressingMode :
    ∃ t, exec .getGasConcentration (readAt 4000 0) = .next t ∧ t.txlog ≠ (readAt 4000 0).txlog := by
  obtain ⟨t, h, -, -, hl, -⟩ := live_gas 4000 0 (by decide)
  exact ⟨t, h, hl⟩

theorem test_witness_EveryTransmissionIsOneFrameWithARightCrc :
    ∃ t, exec .getAirPressureReference (readAt 4000 0) = .next t ∧ t.txlog ≠ (readAt 4000 0).txlog := by
  obtain ⟨t, h, hl, -⟩ := live_air 4000 0 (by decide)
  exact ⟨t, h, hl⟩

theorem test_witness_ZeroResponseLengthSucceedsWithoutPolling : 4 ≤ (4 : Byte).toNat ∧ (24 : Byte).toNat ≤ 24 := by decide

theorem test_witness_RequestEndsBySuccessTimeoutOrWaiting :
    (WellFormed (.request 24 24) = true ∧ ∃ t, exec (.request 24 24) (mute 0) = .next t) ∧
      Resumes (.request 4 2) waiting ∧ ∃ t, step waiting = .next t := ⟨⟨rfl, _, rfl⟩, waiting_resumes, _, rfl⟩

theorem test_witness_LargestTimeoutNeverExpires :
    let s := { mute 0 with timeout := 0xFFFFFFFF }
    let w := { waiting with timeout := 0xFFFFFFFF }
    (s.timeout = 0xFFFFFFFF ∧ WellFormed (.request 4 1) = true ∧ Exchanges s (.request 4 1) ∧
        ∃ t, exec (.request 4 1) s = .next t) ∧
      w.timeout = 0xFFFFFFFF ∧ Resumes (.request 4 2) w ∧ ∃ t, step w = .next t :=
  ⟨⟨rfl, rfl, by simp [Exchanges], _, rfl⟩, rfl,
    { waiting_resumes with waiting := { waiting_resumes.waiting with } }, _, rfl⟩

theorem test_witness_ReceivedBytesAreKeptInOrder : ∃ t, exec (.request 4 2) (answering 0) = .next t := ⟨_, rfl⟩

theorem test_witness_GetAddressIgnoresAllButByteThree :
    let q : List Byte := [0xFE, 3, 2, 0x40, 0, 0, 0]
    let q' : List Byte := [9, 9, 9, 0x40, 9, 9, 9]
    q.length = q'.length ∧ q[3]? = q'[3]? ∧ q ≠ q' := by decide

theorem test_witness_GetAddressReturnsByteThree :
      Prompt (answering 0) (Config.params.cmdLen .getAddress) 7 ∧
      Prompt (pacing 0 (Config.params.cmdLen .getAddress) 7) (Config.params.cmdLen .getAddress) 7 ∧
      TooLate (mute 0) (Config.params.cmdLen .getAddress) 7 0 ∧
      TooLate (tardy 0) (Config.params.cmdLen .getAddress) 7 1 :=
  four_environments _ _ (by decide) (by decide)

theorem test_witness_SetAddressValidatesAndFollowsOnSuccess :
    247 < (248 : Byte).toNat ∧ (247 : Byte).toNat ≤ 247 ∧
      Prompt (answering 0) (Config.params.cmdLen .setAddress) 8 ∧
      Prompt (pacing 0 (Config.params.cmdLen .setAddress) 8) (Config.params.cmdLen .setAddress) 8 ∧
      TooLate (mute 0) (Config.params.cmdLen .setAddress) 8 0 ∧
      TooLate (tardy 0) (Config.params.cmdLen .setAddress) 8 1 :=
  ⟨by decide, by decide, four_environments _ _ (by decide) (by decide)⟩

theorem test_witness_GetAirPressureDecodesThreeBytesOrReturnsTheCache :
    (answering 3999).sample.clock - (answering 3999).lastread < (4000 : Time) ∧
      (¬ (answering 4000).sample.clock - (answering 4000).lastread < (4000 : Time) ∧
        ¬ (tardy 4000).sample.clock - (tardy 4000).lastread < (4000 : Time)) ∧
      (¬ (mute 4000).sample.clock - (mute 4000).lastread < (4000 : Time) ∧
        ∀ cl, ¬ (pacing 4000 cl 10).sample.clock - (pacing 4000 cl 10).lastread < (4000 : Time)) ∧
      Prompt (answering 4000).sample (Config.params.cmdLen .getAirPressureReference) 10 ∧
      Prompt (pacing 4000 (Config.params.cmdLen .getAirPressureReference) 10).sample (Config.params.cmdLen .getAirPressureReference) 10 ∧
      TooLate (mute 4000).sample (Config.params.cmdLen .getAirPressureReference) 10 0 ∧
      TooLate (tardy 4000).sample (Config.params.cmdLen .getAirPressureReference) 10 1 :=
  ⟨by decide, by decide, ⟨by decide, fun _ => (by decide : ¬ (4000 : Time) + 0 - 0 < 4000)⟩, four_environments_sample _ _ (by decide) (by decide)⟩

theorem test_witness_SetAirPressureValidatesAndPacksThreeBytes :
    ((0x442EFFFF : Word32) < 0x442F0000 ∧ (0x44898000 : Word32) < 0x44898001) ∧
      ((0x442F0000 : Word32) ≤ 0x442F0000 ∧ (0x44898000 : Word32) ≤ 0x44898000) ∧
      Prompt (answering 0) (Config.params.cmdLen .setAirPressureReference) 10 ∧
      Prompt (pacing 0 (Config.params.cmdLen .setAirPressureReference) 10) (Config.params.cmdLen .setAirPressureReference) 10 ∧
      TooLate (mute 0) (Config.params.cmdLen .setAirPressureReference) 10 0 ∧
      TooLate (tardy 0) (Config.params.cmdLen .setAirPressureReference) 10 1 :=
  ⟨by decide, by decide, four_environments _ _ (by decide) (by decide)⟩

theorem test_witness_GetGasChecksMarkersAndDecodesOrReturnsTheCache :
    (answering 3999).sample.clock - (answering 3999).lastread < (4000 : Time) ∧
      (¬ (answering 4000).sample.clock - (answering 4000).lastread < (4000 : Time) ∧
        ¬ (tardy 4000).sample.clock - (tardy 4000).lastread < (4000 : Time)) ∧
      (¬ (mute 4000).sample.clock - (mute 4000).lastread < (4000 : Time) ∧
        ∀ cl, ¬ (pacing 4000 cl 14).sample.clock - (pacing 4000 cl 14).lastread < (4000 : Time)) ∧
      Prompt (answering 4000).sample (Config.params.cmdLen .getGasConcentration) 14 ∧
      Prompt (pacing 4000 (Config.params.cmdLen .getGasConcentration) 14).sample (Config.params.cmdLen .getGasConcentration) 14 ∧
      TooLate (mute 4000).sample (Config.params.cmdLen .getGasConcentration) 14 0 ∧
      TooLate (tardy 4000).sample (Config.params.cmdLen .getGasConcentration) 14 1 :=
  ⟨by decide, by decide, ⟨by decide, fun _ => (by decide : ¬ (4000 : Time) + 0 - 0 < 4000)⟩, four_environments_sample _ _ (by decide) (by decide)⟩

/-- The marker bytes: all zero, and not. -/
theorem test_witness_GetGasChecksMarkersAndDecodesOrReturnsTheCache_markers :
    (∀ a, 8 ≤ a → a ≤ 11 → ((answering 4000).arrivals (answering 4000).moves.length)[a]? = some 0) ∧
      (¬ (garbling 4000).sample.clock - (garbling 4000).lastread < (4000 : Time) ∧
        Prompt (garbling 4000).sample (Config.params.cmdLen .getGasConcentration) 14 ∧
        ((garbling 4000).arrivals (garbling 4000).moves.length)[8]? ≠ some 0) :=
  ⟨fun a h1 h2 => by
      unfold answering
      rw [arrivals_start]
      obtain rfl | rfl | rfl | rfl : a = 8 ∨ a = 9 ∨ a = 10 ∨ a = 11 := by omega
      all_goals rfl,
    by decide, prompt_garbling_sample _ _ _ (Config.params.cmdLen_le _) (by decide), by
      unfold garbling
      rw [arrivals_start]
      decide⟩

theorem test_witness_SetSinglePointCorrectionValidatesAndChecksByteSeven :
    ((399 : Half).toNat < 400 ∧ 5000 < (5001 : Half).toNat) ∧ (400 ≤ (400 : Half).toNat ∧ (5000 : Half).toNat ≤ 5000) ∧
      Prompt (answering 0) (Config.params.cmdLen .setSinglePointCorrection) 10 ∧
      Prompt (pacing 0 (Config.params.cmdLen .setSinglePointCorrection) 10) (Config.params.cmdLen .setSinglePointCorrection) 10 ∧
      TooLate (mute 0) (Config.params.cmdLen .setSinglePointCorrection) 10 0 ∧
      TooLate (tardy 0) (Config.params.cmdLen .setSinglePointCorrection) 10 1 :=
  ⟨by decide, by decide, four_environments _ _ (by decide) (by decide)⟩

/-- Byte 7: zero, and not. -/
theorem test_witness_SetSinglePointCorrectionValidatesAndChecksByteSeven_byte :
    ((answering 0).arrivals (answering 0).moves.length)[7]? = some 0 ∧
      Prompt (garbling 0) (Config.params.cmdLen .setSinglePointCorrection) 10 ∧
      ((garbling 0).arrivals (garbling 0).moves.length)[7]? ≠ some 0 := by
  refine ⟨?_, prompt_garbling _ _ _ (Config.params.cmdLen_le _) (by decide), ?_⟩
  · unfold answering; rw [arrivals_start]; rfl
  · unfold garbling; rw [arrivals_start]; decide

theorem test_witness_CorrectionReadyMeansByteThreeIsZero :
      Prompt (answering 0) (Config.params.cmdLen .getSinglePointCorrectionReady) 6 ∧
      Prompt (pacing 0 (Config.params.cmdLen .getSinglePointCorrectionReady) 6) (Config.params.cmdLen .getSinglePointCorrectionReady) 6 ∧
      TooLate (mute 0) (Config.params.cmdLen .getSinglePointCorrectionReady) 6 0 ∧
      TooLate (tardy 0) (Config.params.cmdLen .getSinglePointCorrectionReady) 6 1 :=
  four_environments _ _ (by decide) (by decide)

theorem test_witness_SelfCalibrationSwitchesSucceedOnAnyResponse :
    (Prompt (answering 0) (Config.params.cmdLen .openSelfCalibration) 6 ∧
      Prompt (pacing 0 (Config.params.cmdLen .openSelfCalibration) 6) (Config.params.cmdLen .openSelfCalibration) 6 ∧
      TooLate (mute 0) (Config.params.cmdLen .openSelfCalibration) 6 0 ∧
      TooLate (tardy 0) (Config.params.cmdLen .openSelfCalibration) 6 1) ∧
      Prompt (answering 0) (Config.params.cmdLen .closeSelfCalibration) 6 ∧
      Prompt (pacing 0 (Config.params.cmdLen .closeSelfCalibration) 6) (Config.params.cmdLen .closeSelfCalibration) 6 ∧
      TooLate (mute 0) (Config.params.cmdLen .closeSelfCalibration) 6 0 ∧
      TooLate (tardy 0) (Config.params.cmdLen .closeSelfCalibration) 6 1 :=
  ⟨four_environments _ _ (by decide) (by decide), four_environments _ _ (by decide) (by decide)⟩

theorem test_witness_GetSelfCalibrationStatusReturnsByteThree :
      Prompt (answering 0) (Config.params.cmdLen .getSelfCalibrationStatus) 6 ∧
      Prompt (pacing 0 (Config.params.cmdLen .getSelfCalibrationStatus) 6) (Config.params.cmdLen .getSelfCalibrationStatus) 6 ∧
      TooLate (mute 0) (Config.params.cmdLen .getSelfCalibrationStatus) 6 0 ∧
      TooLate (tardy 0) (Config.params.cmdLen .getSelfCalibrationStatus) 6 1 :=
  four_environments _ _ (by decide) (by decide)

theorem test_witness_SetSelfCalibrationHoursValidatesPacksAndChecksByteThree :
    ((23 : Half).toNat < 24 ∧ 720 < (721 : Half).toNat) ∧ (24 ≤ (24 : Half).toNat ∧ (720 : Half).toNat ≤ 720) ∧
      Prompt (answering 0) (Config.params.cmdLen .setSelfCalibrationHours) 6 ∧
      Prompt (pacing 0 (Config.params.cmdLen .setSelfCalibrationHours) 6) (Config.params.cmdLen .setSelfCalibrationHours) 6 ∧
      TooLate (mute 0) (Config.params.cmdLen .setSelfCalibrationHours) 6 0 ∧
      TooLate (tardy 0) (Config.params.cmdLen .setSelfCalibrationHours) 6 1 :=
  ⟨by decide, by decide, four_environments _ _ (by decide) (by decide)⟩

/-- Byte 3: zero, and not. -/
theorem test_witness_SetSelfCalibrationHoursValidatesPacksAndChecksByteThree_byte :
    ((answering 0).arrivals (answering 0).moves.length)[3]? = some 0 ∧
      Prompt (garbling 0) (Config.params.cmdLen .setSelfCalibrationHours) 6 ∧
      ((garbling 0).arrivals (garbling 0).moves.length)[3]? ≠ some 0 := by
  refine ⟨?_, prompt_garbling _ _ _ (Config.params.cmdLen_le _) (by decide), ?_⟩
  · unfold answering; rw [arrivals_start]; rfl
  · unfold garbling; rw [arrivals_start]; decide

theorem test_witness_GetSelfCalibrationHoursDecodesTwoBytes :
      Prompt (answering 0) (Config.params.cmdLen .getSelfCalibrationHours) 9 ∧
      Prompt (pacing 0 (Config.params.cmdLen .getSelfCalibrationHours) 9) (Config.params.cmdLen .getSelfCalibrationHours) 9 ∧
      TooLate (mute 0) (Config.params.cmdLen .getSelfCalibrationHours) 9 0 ∧
      TooLate (tardy 0) (Config.params.cmdLen .getSelfCalibrationHours) 9 1 :=
  four_environments _ _ (by decide) (by decide)

/-- A live gas read at 4000, then, at 8000, a live air-pressure read. -/
theorem test_witness_LiveReadsAreFourSecondsApart :
    ∃ s t u v, exec .getGasConcentration s = .next t ∧ t.txlog ≠ s.txlog ∧ u.lastread = t.lastread ∧
      exec .getAirPressureReference u = .next v ∧ v.txlog ≠ u.txlog := by
  obtain ⟨t, h, -, -, hl, hr, -⟩ := live_gas 4000 0 (by decide)
  obtain ⟨v, h', hl', -⟩ := live_air 8000 4000 (by decide)
  exact ⟨_, t, readAt 8000 4000, v, h, hl, hr.symm, h', hl'⟩

/-- A live gas read at 4000, one that succeeds, one that times out, and one that succeeds in a later step; then one at
7999. -/
theorem test_witness_GasReadInsideTheWindowRepeatsTheValue :
    (∃ s t u : State, exec .getGasConcentration s = .next t ∧ t.txlog ≠ s.txlog ∧ t.busy = false ∧ u.gas = t.gas ∧
      u.lastread = t.lastread ∧ u.sample.clock - u.lastread < (4000 : Time) ∧ t.status = 0) ∧
    (∃ s t u : State, exec .getGasConcentration s = .next t ∧ t.txlog ≠ s.txlog ∧ t.busy = false ∧ u.gas = t.gas ∧
      u.lastread = t.lastread ∧ u.sample.clock - u.lastread < (4000 : Time) ∧ t.status ≠ 0) ∧
    ∃ s t u : State, Resumes .getGasConcentration s ∧ step s = .next t ∧ t.busy = false ∧ u.gas = t.gas ∧
      u.lastread = t.lastread ∧ u.sample.clock - u.lastread < (4000 : Time) := by
  refine ⟨?_, ?_, ?_⟩
  · obtain ⟨t, h, hb, hs, hl, hr, -⟩ := live_gas 4000 0 (by decide)
    refine ⟨_, t, { answering 7999 with gas := t.gas, lastread := t.lastread }, h, hl, hb, rfl, rfl, ?_, hs⟩
    show (7999 : Time) + 0 - t.lastread < 4000
    rw [hr]; decide
  · obtain ⟨t, h, hb, hs, hl, hr⟩ := mute_gas
    refine ⟨_, t, { answering 7999 with gas := t.gas, lastread := t.lastread }, h, hl, hb, rfl, rfl, ?_, by rw [hs]; decide⟩
    show (7999 : Time) + 0 - t.lastread < 4000
    rw [hr]; decide
  · exact ⟨waitingFor 0x2200000000 14, _, { answering 3999 with gas := 0x4B0 },
      waitingFor_resumes _ _ .getGasConcentration (by decide) (by decide) rfl rfl rfl, rfl, by decide, by decide, by decide,
      by decide⟩

theorem test_witness_SuppressFlagHasNoEffectOnOtherCommands :
    (∀ g, Instr.getTimeout ≠ .suppressError g) ∧ Instr.getTimeout ≠ .getSuppressError ∧
      ∃ t, exec .getTimeout (start 0 [] 0) = .next t := ⟨by simp, by simp, _, rfl⟩

/-- Each register of R31 is written by some command. -/
theorem test_witness_OnlyTheListedCommandsWriteEachRegister :
    (∃ t, exec (.beginAddr 5) (start 0 [] 0) = .next t ∧ t.addr ≠ (start 0 [] 0).addr) ∧
    (∃ t, exec .setSpecificAddress (start 0 [] 0) = .next t ∧ t.specific ≠ (start 0 [] 0).specific) ∧
    (∃ t, exec (.setTimeout 5) (start 0 [] 0) = .next t ∧ t.timeout ≠ (start 0 [] 0).timeout) ∧
    (∃ t, exec (.suppressError true) (start 0 [] 0) = .next t ∧ t.suppress ≠ (start 0 [] 0).suppress) ∧
    (∃ t, exec .getGasConcentration (readAt 4000 0) = .next t ∧ t.lastread ≠ (readAt 4000 0).lastread ∧
      t.gas ≠ (readAt 4000 0).gas) ∧
    (∃ t, exec .getAirPressureReference (readAt 4000 0) = .next t ∧ t.airp ≠ (readAt 4000 0).airp) := by
  refine ⟨⟨_, rfl, by decide⟩, ⟨_, rfl, by decide⟩, ⟨_, rfl, by decide⟩, ⟨_, rfl, by decide⟩, ?_, ?_⟩
  · obtain ⟨t, h, -, -, -, hr, hg⟩ := live_gas 4000 0 (by decide)
    exact ⟨t, h, by rw [hr]; decide, by rw [hg]; decide⟩
  · obtain ⟨t, h, -, -, ha⟩ := live_air 4000 0 (by decide)
    exact ⟨t, h, by rw [ha]; decide⟩

/-- What a later step writes: `ADDR`, `GAS`, `AIRP`. -/
theorem test_witness_OnlyTheListedCommandsWriteEachRegister_resumed :
    (Resumes (.setAddress 5) (waitingFor 0x1100000005 8) ∧
      ∃ t, step (waitingFor 0x1100000005 8) = .next t ∧ t.addr ≠ (waitingFor 0x1100000005 8).addr) ∧
    (Resumes .getGasConcentration (waitingFor 0x2200000000 14) ∧
      ∃ t, step (waitingFor 0x2200000000 14) = .next t ∧ t.gas ≠ (waitingFor 0x2200000000 14).gas) ∧
    (Resumes .getAirPressureReference (waitingFor 0x2000000000 10) ∧
      ∃ t, step (waitingFor 0x2000000000 10) = .next t ∧ t.airp ≠ (waitingFor 0x2000000000 10).airp) :=
  ⟨⟨waitingFor_resumes _ _ _ (by decide) (by decide) rfl rfl rfl, _, rfl, by decide⟩,
    ⟨waitingFor_resumes _ _ _ (by decide) (by decide) rfl rfl rfl, _, rfl, by decide⟩,
    waitingFor_resumes _ _ _ (by decide) (by decide) rfl rfl rfl, _, rfl, by decide⟩

/-- The rest of R31: the CRC unit, the two buffers and the sequencer. -/
theorem test_witness_OnlyTheListedCommandsWriteEachRegister_buffers :
    let s := { start 0 [7] 0 with crchi := 0, txbuf := [(0, 0)], respbuf := [(0, 0)], txlen := 0 }
    (∃ t, exec (.crc16 0) s = .next t ∧ t.crchi ≠ s.crchi) ∧
    (∃ t, exec (.wrbuf 0 5) s = .next t ∧ t.memRead .txbuf 0 ≠ s.memRead .txbuf 0) ∧
    (∃ t, exec (.request 4 1) s = .next t ∧ t.memRead .respbuf 0 ≠ s.memRead .respbuf 0 ∧ t.txlen ≠ s.txlen) := by
  refine ⟨⟨_, rfl, by decide⟩, ⟨_, rfl, by decide⟩, ⟨_, rfl, by decide, by decide⟩⟩

/-- The checks of each command at their bounds. -/
theorem test_witness_EveryExchangeEndsByItsCommandsRule :
    Exchanges (answering 0) .getAddress ∧ Exchanges (answering 0) (.setAddress 247) ∧
      Exchanges (answering 4000) .getAirPressureReference ∧ Exchanges (mute 4000) .getGasConcentration ∧
      Exchanges (mute 0) (.setAirPressureReference 0x442F0000) ∧
      Exchanges (mute 0) (.setAirPressureReference 0x44898000) ∧ Exchanges (mute 0) (.setSinglePointCorrection 400) ∧
      Exchanges (mute 0) (.setSinglePointCorrection 5000) ∧ Exchanges (mute 0) (.setSelfCalibrationHours 24) ∧
      Exchanges (mute 0) (.setSelfCalibrationHours 720) ∧ Exchanges (mute 0) (.request 4 0) ∧
      Exchanges (mute 0) (.request 24 24) := by
  refine ⟨trivial, ?_, ?_, ?_, ?_, ?_, ?_, ?_, ?_, ?_, ?_, ?_⟩ <;> (unfold Exchanges; decide)

theorem test_witness_EveryResumedExchangeEndsByItsCommandsRule :
    Resumes (.request 4 2) waiting ∧ Resumes (.setAddress 247) (waitingFor 0x11000000F7 8) :=
  ⟨waiting_resumes, waitingFor_resumes _ _ _ (by decide) (by decide) rfl rfl rfl⟩

theorem test_witness_TransmitIndexIsLeftAtTheCommandLength :
    ∃ t, exec .getGasConcentration (readAt 4000 0) = .next t ∧ t.txlog ≠ (readAt 4000 0).txlog := by
  obtain ⟨t, h, -, -, hl, -⟩ := live_gas 4000 0 (by decide)
  exact ⟨t, h, hl⟩

end Sys2Proof.Tests
end

section
/-! PROOFS. The scope (spec/00_scope.md R7): what a step without input from the Host does. -/

namespace Sys2Proof.Machine

/-! ### Which way a step goes -/

theorem step_of_not_busy {s : State} (hbusy : s.busy = false) : step s = idleStep s := by
  simp [step, hbusy]

theorem idleStep_of_no_input {s : State} (hinputs : s.inputs = []) : idleStep s = .next s.betweenCommands := by
  simp [idleStep, hinputs]

/-! ### What the environment's move between two commands leaves unchanged -/

theorem State.betweenCommands_eq (s : State) : s.betweenCommands = s.environmentMove := rfl

theorem State.environmentMove_sameConfig (s : State) : SameConfig s s.environmentMove := by
  constructor <;> simp

theorem State.environmentMove_sameCached (s : State) : SameCached s s.environmentMove := by
  constructor <;> simp

theorem State.environmentMove_sameCrc (s : State) : SameCrc s s.environmentMove := by
  constructor <;> simp

theorem State.environmentMove_sameSequencer (s : State) : SameSequencer s s.environmentMove := by
  constructor <;> simp

theorem State.environmentMove_sameBytes (sp : Space) (s : State) : SameBytes sp s s.environmentMove :=
  s.environmentMove_memRead sp

theorem State.environmentMove_sameHost (s : State) : SameHost s s.environmentMove := by
  constructor <;> simp

/-! ### The idle step -/

/-- Settles O8: the step is the environment's move, whose bytes join `RXQ` at its end and which writes nothing else
than the Clock and the count of the moves made. -/
theorem idleStepMovesOnlyTheEnvironment : Obligations.IdleStepMovesOnlyTheEnvironment := by
  intro s hbusy hinputs
  have hstep : step s = .next s.environmentMove := by
    rw [step_of_not_busy hbusy, idleStep_of_no_input hinputs, s.betweenCommands_eq]
  have hnotBusy : s.environmentMove.busy = false := by simpa using hbusy
  exact ⟨s.environmentMove, hstep, s.environmentMove_sameConfig, s.environmentMove_sameCached,
    s.environmentMove_sameCrc, s.environmentMove_sameSequencer, s.environmentMove_sameBytes .txbuf,
    s.environmentMove_sameBytes .respbuf, s.environmentMove_sameHost, s.environmentMove_cmd, s.environmentMove_result,
    s.environmentMove_status, s.environmentMove_phase, hnotBusy, s.environmentMove_txlog, s.nextMove.bytes,
    s.environmentMove_rxq⟩

end Sys2Proof.Machine
end

section
/-! PROOFS. The command word (spec/30_encoding.md R61 to R66): a command's own word decodes to it. -/

namespace Sys2Proof

/-! ### Operand fields -/

/-- An operand of `n` bits leaves the bits from `n` up at 0, and reads back as written (R62). -/
theorem fmtLow_setWidth {n : Nat} (hn : n ≤ 32) (op : Byte) (a : BitVec n) (i : Instr) :
    fmtLow op (a.setWidth 32) n i = .ok i := by
  refine if_pos (BitVec.eq_of_toNat_eq ?_)
  have ha := a.isLt
  rw [BitVec.toNat_ushiftRight, BitVec.toNat_setWidth_of_le hn, Nat.shiftRight_eq_div_pow, Nat.div_eq_of_lt ha]
  rfl

theorem extract_setWidth {n : Nat} (hn : n ≤ 32) (a : BitVec n) : (a.setWidth 32).extractLsb' 0 n = a := by
  rw [BitVec.extractLsb'_setWidth_of_le (by omega), BitVec.extractLsb'_eq_self]

theorem fmtLow_full (op : Byte) (v : Word32) (i : Instr) : fmtLow op v 32 i = .ok i :=
  if_pos (BitVec.ushiftRight_eq_zero (le_refl 32))

theorem twoBytes_hi (hi lo : Byte) : (twoBytes hi lo).extractLsb' 8 8 = hi := by
  rw [twoBytes, BitVec.extractLsb'_setWidth_of_le (by decide), extract_high_append]

theorem twoBytes_lo (hi lo : Byte) : (twoBytes hi lo).extractLsb' 0 8 = lo := by
  rw [twoBytes, BitVec.extractLsb'_setWidth_of_le (by decide), extract_low_append]

theorem fmtLow_twoBytes (op hi lo : Byte) (i : Instr) : fmtLow op (twoBytes hi lo) 16 i = .ok i :=
  fmtLow_setWidth (n := 16) (by decide) op (hi ++ lo) i

/-! ### Decoding a command's own word -/

/-- Every command's word decodes to that command (R61, R62, R66). A word without operand is a constant. -/
theorem decode_encode (i : Instr) : decode (encode i) = .ok i := by
  cases i with
  | beginAddr a | setAddress a | crc16 a | rdbuf a | setSinglePointCorrection a | setSelfCalibrationHours a =>
    simp [decode, encode, Laws.opcodeOf_commandWord, Laws.operandOf_commandWord, fmtLow_setWidth, extract_setWidth]
  | suppressError f => cases f <;> rfl
  | setAirPressureReference v | setTimeout v =>
    simp [decode, encode, Laws.opcodeOf_commandWord, Laws.operandOf_commandWord, fmtLow_full]
  | request a b | wrbuf a b =>
    simp [decode, encode, Laws.opcodeOf_commandWord, Laws.operandOf_commandWord, fmtLow_twoBytes, twoBytes_hi,
      twoBytes_lo]
  | _ => rfl

end Sys2Proof
end

section
/-! PROOFS. What `exec` can do (spec/42_operations.md R140, spec/43_config.md): a command whose checks pass performs one
exchange and finishes from its outcome, every other command ends at once. -/

namespace Sys2Proof.Machine

/-! ### The checks (R151, R154, R160, R166, R198, R145), each in the form `Exchanges` gives it -/

theorem addressOk_iff {a : Byte} : addressOk a = true ↔ a.toNat ≤ 247 := decide_eq_true_iff

theorem airPressureOk_iff {v : Word32} : airPressureOk v = true ↔ 0x442F0000 ≤ v.toNat ∧ v.toNat ≤ 0x44898000 := by
  simp [airPressureOk, BitVec.le_def]

theorem correctionOk_iff {v : Half} : correctionOk v = true ↔ 400 ≤ v.toNat ∧ v.toNat ≤ 5000 := by
  simp [correctionOk, BitVec.le_def]

theorem hoursOk_iff {h : Half} : hoursOk h = true ↔ 24 ≤ h.toNat ∧ h.toNat ≤ 720 := by
  simp [hoursOk, BitVec.le_def]

theorem requestLengthsOk_iff {cl rl : Byte} :
    requestLengthsOk cl rl = true ↔ 4 ≤ cl.toNat ∧ cl.toNat ≤ 24 ∧ rl.toNat ≤ 24 := by
  simp only [requestLengthsOk, Bool.and_eq_true, decide_eq_true_eq, and_assoc]
  exact Iff.rfl

theorem State.inRateWindow_iff {s : State} : s.inRateWindow = true ↔ ¬ 4000 ≤ (s.clock - s.lastread).toNat := by
  rw [Nat.not_le]
  exact decide_eq_true_iff

/-- What a command with an exchange checks before it (R152, R72, R75, R111). -/
theorem Exchanges.isValidated {s : State} {i : Instr} (h : Exchanges s i) : validated i = true := by
  cases i with
  | setAddress a => exact addressOk_iff.2 h
  | _ => rfl

/-- The commands with an exchange are those with a finish (R31). -/
theorem Exchanges.hasFinish {s : State} {i : Instr} (h : Exchanges s i) : ∃ finish, finishOf i = some finish := by
  cases i with
  | beginAddr | isConnected | setGenericAddress | setSpecificAddress | useSpecificAddress | setTimeout | getTimeout
  | suppressError | getSuppressError | lastRead | getType | lastError | crc16 | wrbuf | rdbuf => exact h.elim
  | _ => exact ⟨_, rfl⟩

/-! ### The state an exchange starts from -/

/-- The sensor operation of a command, and the operand its template is built with (R72, R75, R141). -/
def operationOf : Instr → Option (SensorOp × Word32)
  | .getAddress => some (.getAddress, 0)
  | .setAddress a => some (.setAddress, a.setWidth 32)
  | .getAirPressureReference => some (.getAirPressureReference, 0)
  | .setAirPressureReference v => some (.setAirPressureReference, v)
  | .getGasConcentration => some (.getGasConcentration, 0)
  | .setSinglePointCorrection v => some (.setSinglePointCorrection, v.setWidth 32)
  | .getSinglePointCorrectionReady => some (.getSinglePointCorrectionReady, 0)
  | .openSelfCalibration => some (.openSelfCalibration, 0)
  | .closeSelfCalibration => some (.closeSelfCalibration, 0)
  | .getSelfCalibrationStatus => some (.getSelfCalibrationStatus, 0)
  | .setSelfCalibrationHours h => some (.setSelfCalibrationHours, h.setWidth 32)
  | .getSelfCalibrationHours => some (.getSelfCalibrationHours, 0)
  | _ => none

/-- The command is issued and, where it reads, its reading admitted (R60, R146). -/
def State.admitted (s : State) (i : Instr) : State :=
  match i with
  | .getAirPressureReference | .getGasConcentration => (s.issue i).sample.admitRead
  | _ => s.issue i

/-- The operand packing after the frame builder (R74, R141). -/
def State.packOperand (s : State) : Instr → State
  | .setAirPressureReference v => s.put24le 4 v
  | .setSelfCalibrationHours h => s.put16le Config.params.hrsOff (h.setWidth 32)
  | _ => s

/-- The state from which command `i`, its checks passed in `s`, performs its exchange (R140 stages 1 to 3). `REQUEST`
builds no frame (R198). -/
def State.prepared (s : State) (i : Instr) : State :=
  match operationOf i with
  | some (op, x) => ((s.admitted i).build Config.params op x).packOperand i
  | none => s.admitted i

/-- The commands that take a reading, for which the rate check stands (R145). -/
def Reads (i : Instr) : Prop := i = .getGasConcentration ∨ i = .getAirPressureReference

/-- What issue and admission write (R60, R145, R146). -/
theorem State.admitted_eq (s : State) (i : Instr) :
    ∃ lr c d dc, (lr = s.lastread ∨ Reads i) ∧ s.admitted i =
      { s with
        cmd := encode i, busy := true, phase := .validate, lastread := lr, clock := c, drifts := d, driftCount := dc } := by
  cases i with
  | getAirPressureReference => exact ⟨_, _, _, _, .inr (.inr rfl), rfl⟩
  | getGasConcentration => exact ⟨_, _, _, _, .inr (.inl rfl), rfl⟩
  | _ => exact ⟨_, _, _, _, .inl rfl, rfl⟩

theorem State.packOperand_eq (s : State) (i : Instr) : ∃ m, s.packOperand i = { s with txbuf := m } := by
  cases i with
  | setAirPressureReference v => exact s.put24le_eq 4 v
  | setSelfCalibrationHours h => exact s.put16le_eq _ _
  | _ => exact ⟨_, rfl⟩

/-- All that a command writes before its exchange (R31, R140): `CMD`, `BUSY`, `PHASE`, `TXBUF`, and `LASTREAD` where it
takes a reading. -/
theorem State.prepared_eq (s : State) (i : Instr) :
    ∃ lr c d dc ph m, (lr = s.lastread ∨ Reads i) ∧ s.prepared i =
      { s with
        cmd := encode i, busy := true, phase := ph, txbuf := m
        lastread := lr, clock := c, drifts := d, driftCount := dc } := by
  obtain ⟨lr, c, d, dc, hlr, hadm⟩ := s.admitted_eq i
  unfold State.prepared
  split
  next op x _ =>
    obtain ⟨m, hbuild⟩ := (s.admitted i).build_eq Config.params op x
    obtain ⟨m', hpack⟩ := ((s.admitted i).build Config.params op x).packOperand_eq i
    exact ⟨lr, c, d, dc, .build, m', hlr, by rw [hpack, hbuild, hadm]⟩
  next => exact ⟨lr, c, d, dc, .validate, s.txbuf, hlr, hadm⟩

theorem State.packOperand_wf {s : State} (h : Memory.wf s.txbuf) (i : Instr) : Memory.wf (s.packOperand i).txbuf := by
  cases i with
  | setAirPressureReference v => exact s.put24le_wf 4 v h
  | setSelfCalibrationHours x => exact s.put16le_wf _ _ h
  | _ => exact h

/-- The frame builder and the packing keep `TXBUF` canonical (R41). -/
theorem State.prepared_wf {s : State} (h : Memory.wf s.txbuf) (i : Instr) : Memory.wf (s.prepared i).txbuf := by
  have hadm : Memory.wf (s.admitted i).txbuf := by
    obtain ⟨lr, c, d, dc, -, hadm⟩ := s.admitted_eq i
    rw [hadm]
    exact h
  unfold State.prepared
  split
  next op x _ => exact State.packOperand_wf (State.build_wf _ _ op x hadm) i
  next => exact hadm

theorem respLen_le (op : SensorOp) : respLen op ≤ 24 := by cases op <;> decide

theorem exchangeLengths_of_operationOf {i : Instr} {op : SensorOp} {x : Word32} (h : operationOf i = some (op, x)) :
    exchangeLengths i = (Config.params.cmdLen op, respLen op) := by
  cases i <;> cases h <;> rfl

/-- The lengths of every exchange fit the buffers (R72, R75, R111). -/
theorem Exchanges.lengths {s : State} {i : Instr} (h : Exchanges s i) :
    4 ≤ (exchangeLengths i).1 ∧ (exchangeLengths i).1 ≤ 24 ∧ (exchangeLengths i).2 ≤ 24 := by
  obtain ⟨finish, hf⟩ := h.hasFinish
  cases hop : operationOf i with
  | some opx =>
    rw [exchangeLengths_of_operationOf hop]
    exact ⟨(Config.minCmdLen_ge_four _).trans (Config.params.cmdLen_ge _), Config.params.cmdLen_le _, respLen_le _⟩
  | none =>
    cases i <;> cases hf <;> cases hop
    exact h

/-! ### A command whose checks pass -/

/-- The whole of a command with an exchange (R140): the checks, the frame, the exchange, and what follows its outcome. -/
theorem exec_of_exchanges {s : State} {i : Instr} {finish : ExchangeOutcome × State → State} (h : Exchanges s i)
    (hf : finishOf i = some finish) :
    exec i s = .next (finish ((s.prepared i).exchange (exchangeLengths i).1 (exchangeLengths i).2)) := by
  cases i <;> cases hf
  case setAddress => exact congrArg _ (if_pos (addressOk_iff.2 h))
  case setAirPressureReference => exact congrArg _ (if_pos (airPressureOk_iff.2 h))
  case setSinglePointCorrection => exact congrArg _ (if_pos (correctionOk_iff.2 h))
  case setSelfCalibrationHours => exact congrArg _ (if_pos (hoursOk_iff.2 h))
  case request => exact congrArg _ (if_pos (requestLengthsOk_iff.2 h))
  case getAirPressureReference => exact congrArg _ (if_neg fun hin => State.inRateWindow_iff.1 hin h)
  case getGasConcentration => exact congrArg _ (if_neg fun hin => State.inRateWindow_iff.1 hin h)
  all_goals rfl

/-! ### A command that ends at once -/

/-- What command `i` may write when it performs no exchange, the host-interface registers and `PHASE` apart (R31, R140,
R145): each configuration register under its own commands, the CRC unit under `CRC16`, `TXBUF` under `WRBUF`, and the
Clock's part under any. -/
structure WritesAlone (i : Instr) (s u : State) : Prop where
  addr : u.addr = s.addr ∨ ∃ a, i = .beginAddr a ∧ u.addr = a ∧ a.toNat ≤ 247
  specific : u.specific = s.specific ∨ i = .setGenericAddress ∨ i = .setSpecificAddress
  timeout : u.timeout = s.timeout ∨ ∃ ms, i = .setTimeout ms
  suppress : u.suppress = s.suppress ∨ ∃ f, i = .suppressError f
  cached : u.lastread = s.lastread ∧ u.gas = s.gas ∧ u.airp = s.airp
  crc : (u.crchi = s.crchi ∧ u.crclo = s.crclo ∧ u.idx = s.idx) ∨ ∃ n, i = .crc16 n
  txbuf : u.txbuf = s.txbuf ∨ ∃ k b, i = .wrbuf k b
  canonical : Memory.wf s.txbuf → Memory.wf u.txbuf
  respbuf : u.respbuf = s.respbuf
  sequencer : u.txlen = s.txlen ∧ u.rxlen = s.rxlen ∧ u.txi = s.txi ∧ u.rxn = s.rxn ∧ u.tstart = s.tstart
  txlog : u.txlog = s.txlog
  epoch : u.epoch = s.epoch

/-- Command `i` has ended without an exchange, the block idle and `STATUS` a code of R211 or as it was (R60, R194). -/
structure EndedAlone (i : Instr) (s t : State) : Prop where
  writes : WritesAlone i s t
  phase : t.phase = .idle
  busy : t.busy = false
  status : t.status = s.status ∨ t.status.toNat ≤ 4

theorem ErrorClass.code_le (e : ErrorClass) : e.code.toNat ≤ 4 := by cases e <;> decide

theorem WritesAlone.issue (s : State) (i : Instr) : WritesAlone i s (s.issue i) where
  addr := .inl rfl
  specific := .inl rfl
  timeout := .inl rfl
  suppress := .inl rfl
  cached := ⟨rfl, rfl, rfl⟩
  crc := .inl ⟨rfl, rfl, rfl⟩
  txbuf := .inl rfl
  canonical := id
  respbuf := rfl
  sequencer := ⟨rfl, rfl, rfl, rfl, rfl⟩
  txlog := rfl
  epoch := rfl

theorem WritesAlone.sample {i : Instr} {s u : State} (h : WritesAlone i s u) : WritesAlone i s u.sample := { h with }

theorem WritesAlone.crcUnit (s : State) (n : Byte) : WritesAlone (.crc16 n) s ((s.issue (.crc16 n)).crcUnit n.toNat) := by
  obtain ⟨k, hk⟩ := (s.issue (.crc16 n)).crcUnit_eq n.toNat
  rw [hk]
  exact { WritesAlone.issue s (.crc16 n) with crc := .inr ⟨n, rfl⟩ }

theorem WritesAlone.txWrite (s : State) (k b : Byte) :
    WritesAlone (.wrbuf k b) s ((s.issue (.wrbuf k b)).txWrite k.toNat b) := by
  have hwf : Memory.wf s.txbuf → Memory.wf ((s.issue (.wrbuf k b)).txWrite k.toNat b).txbuf :=
    State.txWrite_wf (s.issue (.wrbuf k b)) k.toNat b
  obtain ⟨m, hm⟩ := (s.issue (.wrbuf k b)).txWrite_eq k.toNat b
  rw [hm] at hwf ⊢
  exact { WritesAlone.issue s (.wrbuf k b) with txbuf := .inr ⟨k, b, rfl⟩, canonical := hwf }

/-- A command's end without an error (R140 stage 6). -/
theorem WritesAlone.complete {i : Instr} {s u : State} (h : WritesAlone i s u) (r : Word32) :
    EndedAlone i s (u.complete r) :=
  { writes := { h with }, phase := rfl, busy := rfl, status := .inr (Nat.zero_le _) }

/-- A command's end by raising an error (R218). -/
theorem WritesAlone.raise {i : Instr} {s u : State} (h : WritesAlone i s u) (e : ErrorClass) (r : Word32) :
    EndedAlone i s (u.raise e r) :=
  { writes := { h with }, phase := rfl, busy := rfl, status := .inr e.code_le }

/-- A command whose check fails raises an error from its issue on (R140 stage 1). -/
theorem EndedAlone.ofCheck {i : Instr} {s t u : State} {c : Bool} {e : ErrorClass} {r : Word32} (hc : ¬ c = true)
    (ht : t = if c = true then u else (s.issue i).raise e r) : EndedAlone i s t := by
  rw [ht, if_neg hc]
  exact (WritesAlone.issue s i).raise e r

/-- A command that performs no exchange, by its form or because a check fails or its cached value is returned, answers
nothing or ends at once. -/
theorem endedAlone_of_not_exchanges {i : Instr} {s t : State} (hx : ¬ Exchanges s i) (h : exec i s = .next t) :
    EndedAlone i s t := by
  cases i with
  | getAddress | getSinglePointCorrectionReady | openSelfCalibration | closeSelfCalibration
  | getSelfCalibrationStatus | getSelfCalibrationHours => exact absurd trivial hx
  | isConnected => cases h
  | setAddress a => cases h; exact .ofCheck (mt addressOk_iff.1 hx) rfl
  | setAirPressureReference v => cases h; exact .ofCheck (mt airPressureOk_iff.1 hx) rfl
  | setSinglePointCorrection v => cases h; exact .ofCheck (mt correctionOk_iff.1 hx) rfl
  | setSelfCalibrationHours x => cases h; exact .ofCheck (mt hoursOk_iff.1 hx) rfl
  | request cl rl => cases h; exact .ofCheck (mt requestLengthsOk_iff.1 hx) rfl
  | getAirPressureReference =>
    cases h
    have hcached : runGetAirPressureReference Config.params s = _ := if_pos (State.inRateWindow_iff.2 hx)
    rw [hcached]
    exact (WritesAlone.issue s _).sample.complete _
  | getGasConcentration =>
    cases h
    have hcached : runGetGasConcentration Config.params s = _ := if_pos (State.inRateWindow_iff.2 hx)
    rw [hcached]
    exact (WritesAlone.issue s _).sample.complete _
  | beginAddr a =>
    cases h
    dsimp only
    split
    next hok =>
      refine WritesAlone.complete ?_ _
      exact { WritesAlone.issue s (.beginAddr a) with addr := .inr ⟨a, rfl, rfl, addressOk_iff.1 hok⟩ }
    next => exact (WritesAlone.issue s _).raise _ _
  | setGenericAddress =>
    cases h
    refine WritesAlone.complete ?_ _
    exact { WritesAlone.issue s .setGenericAddress with specific := .inr (.inl rfl) }
  | setSpecificAddress =>
    cases h
    refine WritesAlone.complete ?_ _
    exact { WritesAlone.issue s .setSpecificAddress with specific := .inr (.inr rfl) }
  | setTimeout ms =>
    cases h
    refine WritesAlone.complete ?_ _
    exact { WritesAlone.issue s (.setTimeout ms) with timeout := .inr ⟨ms, rfl⟩ }
  | suppressError f =>
    cases h
    refine WritesAlone.complete ?_ _
    exact { WritesAlone.issue s (.suppressError f) with suppress := .inr ⟨f, rfl⟩ }
  | useSpecificAddress | getTimeout | getSuppressError | lastRead | getType =>
    cases h
    exact (WritesAlone.issue s _).complete _
  | lastError =>
    cases h
    exact { writes := { WritesAlone.issue s .lastError with }, phase := rfl, busy := rfl, status := .inl rfl }
  | crc16 n =>
    cases h
    dsimp only
    split
    next => exact (WritesAlone.crcUnit s n).complete _
    next => exact (WritesAlone.issue s _).raise _ _
  | wrbuf k b =>
    cases h
    dsimp only
    split
    next => exact (WritesAlone.txWrite s k b).complete _
    next => exact (WritesAlone.issue s _).raise _ _
  | rdbuf k =>
    cases h
    dsimp only
    split
    next => exact (WritesAlone.issue s _).complete _
    next => exact (WritesAlone.issue s _).raise _ _

/-- All that a command can do in its first step: it performs an exchange and finishes from its outcome, or it ends at
once (R140). -/
theorem exec_cases {i : Instr} {s t : State} (h : exec i s = .next t) :
    (Exchanges s i ∧ ∃ finish, finishOf i = some finish ∧
      t = finish ((s.prepared i).exchange (exchangeLengths i).1 (exchangeLengths i).2)) ∨ EndedAlone i s t := by
  by_cases hx : Exchanges s i
  · obtain ⟨finish, hf⟩ := hx.hasFinish
    rw [exec_of_exchanges hx hf] at h
    cases h
    exact .inl ⟨hx, finish, hf, rfl⟩
  · exact .inr (endedAlone_of_not_exchanges hx h)

end Sys2Proof.Machine
end

section
/-! PROOFS. The invariant (spec/10_state.md): what a finish and a step can do, and that every step keeps the
invariant. -/

namespace Sys2Proof.Machine

/-! ### What follows an exchange -/

/-- The top byte of a decoded air-pressure reference is zero (R17, R149). -/
theorem f32le3_topByte (b0 b1 b2 : Byte) : (f32le3 b0 b1 b2).extractLsb' 24 8 = 0 := by
  rw [f32le3, BitVec.extractLsb'_append_eq_of_le (by decide), BitVec.extractLsb'_append_eq_of_le (by decide)]
  exact extract_high_append 0 b2

/-- What the finish of command `i` makes of the outcome `r` of its exchange (R31, R143): `ADDR`, `GAS` and `AIRP` are
written by one command each, and an exchange that is over leaves the block idle with a `STATUS` of R211. -/
structure Finishes (i : Instr) (r : ExchangeOutcome × State) (t : State) : Prop where
  addr : t.addr = r.2.addr ∨ i = .setAddress t.addr
  gas : t.gas = r.2.gas ∨ i = .getGasConcentration
  airp : t.airp = r.2.airp ∨ i = .getAirPressureReference ∧ t.airp.extractLsb' 24 8 = 0
  ended : r.1 ≠ .waiting → t.phase = .idle ∧ t.busy = false ∧ t.status.toNat ≤ 4

theorem Finishes.ofComplete (i : Instr) (o : ExchangeOutcome) (e : State) (r : Word32) :
    Finishes i (o, e) ((e.setPhase .decode).complete r) :=
  ⟨.inl rfl, .inl rfl, .inl rfl, fun _ => ⟨rfl, rfl, Nat.zero_le _⟩⟩

theorem Finishes.ofRaise (i : Instr) (o : ExchangeOutcome) (e : State) (ph : Phase) (c : ErrorClass) (r : Word32) :
    Finishes i (o, e) ((e.setPhase ph).raise c r) :=
  ⟨.inl rfl, .inl rfl, .inl rfl, fun _ => ⟨rfl, rfl, c.code_le⟩⟩

/-- All that a finish can do, one command and one outcome at a time (R143, R150 to R167, R198). -/
theorem finish_finishes {i : Instr} {finish : ExchangeOutcome × State → State} (hf : finishOf i = some finish)
    (r : ExchangeOutcome × State) : Finishes i r (finish r) := by
  obtain ⟨o, e⟩ := r
  cases o
  case waiting =>
    rw [finish_waiting hf]
    exact ⟨.inl rfl, .inl rfl, .inl rfl, fun h => absurd rfl h⟩
  case timeout =>
    rw [finish_timeout hf]
    exact .ofRaise i .timeout e e.phase .timeout _
  case success =>
    cases i <;> cases hf
    case setAddress a => exact ⟨.inr rfl, .inl rfl, .inl rfl, fun _ => ⟨rfl, rfl, Nat.zero_le _⟩⟩
    case getAirPressureReference =>
      exact ⟨.inl rfl, .inl rfl, .inr ⟨rfl, f32le3_topByte _ _ _⟩, fun _ => ⟨rfl, rfl, Nat.zero_le _⟩⟩
    case getGasConcentration =>
      dsimp only [finishGetGasConcentration, conclude]
      split
      next => exact ⟨.inl rfl, .inr rfl, .inl rfl, fun _ => ⟨rfl, rfl, Nat.zero_le _⟩⟩
      next => exact .ofRaise _ _ e .decode _ _
    case setSinglePointCorrection =>
      dsimp only [finishSetSinglePointCorrection, conclude]
      split
      next => exact .ofRaise _ _ e .decode _ _
      next => exact .ofComplete _ _ e _
    case setSelfCalibrationHours =>
      dsimp only [finishSetSelfCalibrationHours, conclude]
      split
      next => exact .ofComplete _ _ e _
      next => exact .ofRaise _ _ e .decode _ _
    case request => exact ⟨.inl rfl, .inl rfl, .inl rfl, fun _ => ⟨rfl, rfl, Nat.zero_le _⟩⟩
    all_goals exact .ofComplete _ _ e _

/-! ### The invariant's parts -/

/-- The invariant without what it says of `PHASE` and `BUSY` (R11, R17, R41, R211). -/
structure Sound (s : State) : Prop where
  txbuf : Memory.wf s.txbuf
  respbuf : Memory.wf s.respbuf
  addr : s.addr.toNat ≤ 247
  airp : s.airp.extractLsb' 24 8 = 0
  status : s.status.toNat ≤ 4

/-- Command `i` is in its receive loop (R25, R119): what `Waiting` says, but for the loop's own completion test. -/
structure InLoop (i : Instr) (s : State) : Prop where
  phase : s.phase = .rx
  busy : s.busy = true
  txlen : 4 ≤ s.txlen.toNat ∧ s.txlen.toNat ≤ 24
  rxlen : s.rxlen.toNat ≤ 24
  command : decode s.cmd = .ok i
  validated : validated i = true

theorem StateInv.sound {s : State} (h : StateInv s) : Sound s := ⟨h.txbuf, h.respbuf, h.addr, h.airp, h.status⟩

theorem Sound.stateInv_of_idle {s : State} (h : Sound s) (hphase : s.phase = .idle) (hbusy : s.busy = false) :
    StateInv s :=
  ⟨h.txbuf, h.respbuf, h.addr, h.airp, h.status, fun _ => hphase, fun hb => by simp [hbusy] at hb⟩

theorem Sound.stateInv_of_waiting {s : State} (h : Sound s) (hbusy : s.busy = true) (hw : Waiting s) : StateInv s :=
  ⟨h.txbuf, h.respbuf, h.addr, h.airp, h.status, fun hb => by simp [hbusy] at hb, fun _ => hw⟩

theorem Waiting.inLoop {i : Instr} {s : State} (h : Waiting s) (hbusy : s.busy = true) (hcmd : decode s.cmd = .ok i) :
    InLoop i s := by
  obtain ⟨hphase, htx, hrx, -, j, hj, -, hv⟩ := h
  obtain rfl : i = j := Except.ok.inj (hcmd.symm.trans hj)
  exact ⟨hphase, hbusy, htx, hrx, hcmd, hv⟩

/-- The receive loop leaves the command in its loop. -/
theorem InLoop.receive {i : Instr} {s : State} (h : InLoop i s) : InLoop i s.receive.2 := by
  obtain ⟨m, r, c, q, mv, mc, d, dc, heq⟩ := State.receiveLoop_eq (s.moves.length + 1) s
  rw [State.receive, heq]
  exact { h with }

theorem Sound.receive {s : State} (h : Sound s) : Sound s.receive.2 := by
  have hwf := State.receiveLoop_wf (s.moves.length + 1) s h.respbuf
  obtain ⟨m, r, c, q, mv, mc, d, dc, heq⟩ := State.receiveLoop_eq (s.moves.length + 1) s
  rw [State.receive]
  rw [heq] at hwf ⊢
  exact { h with respbuf := hwf }

/-- A loop that is cut still lacks bytes (R119). -/
theorem State.receive_unfinished {s : State} (h : s.receive.1 = .waiting) : s.receive.2.rxn < s.receive.2.rxlen := by
  have hend := State.receiveLoop_end (s.moves.length + 1) s
  rw [← State.receive, show s.receive = (.waiting, s.receive.2) from Prod.ext h rfl] at hend
  exact hend

/-- A validated target address is legal (R11, R151). -/
theorem addr_le_of_validated {a : Byte} (h : validated (.setAddress a) = true) : a.toNat ≤ 247 := addressOk_iff.1 h

/-- The finish of a command establishes the invariant from the end of its receive loop. -/
theorem finish_stateInv {i : Instr} {finish : ExchangeOutcome × State → State} {r : ExchangeOutcome × State}
    (hf : finishOf i = some finish) (hin : InLoop i r.2) (hs : Sound r.2) (hun : r.1 = .waiting → r.2.rxn < r.2.rxlen) :
    StateInv (finish r) := by
  by_cases hw : r.1 = .waiting
  · have hsame : finish r = r.2 := by rw [show r = (.waiting, r.2) from Prod.ext hw rfl, finish_waiting hf]
    rw [hsame]
    exact hs.stateInv_of_waiting hin.busy
      ⟨hin.phase, hin.txlen, hin.rxlen, hun hw, i, hin.command, by rw [hf]; rfl, hin.validated⟩
  · obtain ⟨haddr, -, hairp, hended⟩ := finish_finishes hf r
    obtain ⟨hphase, hbusy, hstatus⟩ := hended hw
    have hbufs : (finish r).txbuf = r.2.txbuf ∧ (finish r).respbuf = r.2.respbuf := by
      obtain ⟨ph, re, st, b, g, a, ad, heq⟩ := finish_eq hf r
      rw [heq]
      exact ⟨rfl, rfl⟩
    have hsound : Sound (finish r) :=
      { txbuf := hbufs.1 ▸ hs.txbuf
        respbuf := hbufs.2 ▸ hs.respbuf
        addr := by
          rcases haddr with hsame | hset
          · exact hsame ▸ hs.addr
          · exact addr_le_of_validated (hset ▸ hin.validated)
        airp := by
          rcases hairp with hsame | ⟨-, htop⟩
          · exact hsame ▸ hs.airp
          · exact htop
        status := hstatus }
    exact hsound.stateInv_of_idle hphase hbusy

/-! ### The first step of a command -/

theorem EndedAlone.stateInv {i : Instr} {s t : State} (h : EndedAlone i s t) (hs : Sound s) : StateInv t := by
  obtain ⟨hw, hphase, hbusy, hstatus⟩ := h
  have hsound : Sound t :=
    { txbuf := hw.canonical hs.txbuf
      respbuf := hw.respbuf ▸ hs.respbuf
      addr := by
        rcases hw.addr with hsame | ⟨a, -, hset, hle⟩
        · exact hsame ▸ hs.addr
        · exact hset ▸ hle
      airp := hw.cached.2.2 ▸ hs.airp
      status := by
        rcases hstatus with hsame | hle
        · exact hsame ▸ hs.status
        · exact hle }
  exact hsound.stateInv_of_idle hphase hbusy

theorem State.prepared_sound {s : State} (h : Sound s) (i : Instr) : Sound (s.prepared i) := by
  have hwf := State.prepared_wf h.txbuf i
  obtain ⟨lr, c, d, dc, ph, m, -, heq⟩ := s.prepared_eq i
  rw [heq] at hwf ⊢
  exact { h with txbuf := hwf }

theorem State.exchange_sound {s : State} (h : Sound s) (cl n : Nat) : Sound (s.exchange cl n).2 := by
  obtain ⟨hconfig, hcached, -, -, -, -, -, hstatus⟩ := s.exchange_same cl n
  obtain ⟨htx, hrx⟩ := s.exchange_wf cl n h.txbuf h.respbuf
  exact
    { txbuf := htx
      respbuf := hrx
      addr := by rw [hconfig.addr]; exact h.addr
      airp := by rw [hcached.airp]; exact h.airp
      status := by rw [hstatus]; exact h.status }

theorem State.exchange_unfinished {s : State} {cl n : Nat} (h : (s.exchange cl n).1 = .waiting) :
    (s.exchange cl n).2.rxn < (s.exchange cl n).2.rxlen := by
  unfold State.exchange at h ⊢
  exact State.receive_unfinished h

/-- A command whose checks pass is in its receive loop after its exchange, until its finish. -/
theorem Exchanges.inLoop {s : State} {i : Instr} (h : Exchanges s i) :
    InLoop i ((s.prepared i).exchange (exchangeLengths i).1 (exchangeLengths i).2).2 := by
  obtain ⟨h4, h24, hn⟩ := h.lengths
  obtain ⟨lr, c, d, dc, ph, m, -, hp⟩ := s.prepared_eq i
  obtain ⟨_, _, _, _, _, _, _, _, _, _, _, _, _, _, _, he⟩ :=
    (s.prepared i).exchange_eq (exchangeLengths i).1 (exchangeLengths i).2
  rw [he, hp]
  refine ⟨rfl, rfl, ?_, ?_, decode_encode i, h.isValidated⟩ <;> (rw [BitVec.toNat_ofNat]; omega)

theorem exec_stateInv {i : Instr} {s t : State} (hs : Sound s) (h : exec i s = .next t) : StateInv t := by
  rcases exec_cases h with ⟨hx, finish, hf, rfl⟩ | halone
  · exact finish_stateInv hf hx.inLoop (State.exchange_sound (State.prepared_sound hs i) _ _)
      State.exchange_unfinished
  · exact halone.stateInv hs

/-! ### The step -/

/-- All that a step can do (R60, R67, R119, R227, R240 to R246). -/
inductive Stepped (s t : State) : Prop
  | reset (rest : List Input) (input : s.inputs = .reset :: rest) (next : t = { s with inputs := rest }.resetInput)
  | resumed (i : Instr) (finish : ExchangeOutcome × State → State) (busy : s.busy = true)
      (command : decode s.cmd = .ok i) (finishes : finishOf i = some finish) (next : t = finish s.receive)
  | idle (free : s.busy = false) (next : t = s.betweenCommands)
  | legal (w : CommandWord) (rest : List Input) (i : Instr) (free : s.busy = false) (word : decode w = .ok i)
      (next : exec i { s with inputs := rest }.betweenCommands = .next t)
  | illegal (w : CommandWord) (rest : List Input) (free : s.busy = false)
      (next : t = ({ s with inputs := rest }.betweenCommands).illegalWord w)

theorem State.suspended_cases {s : State} {finish : ExchangeOutcome × State → State} (h : s.suspended = some finish) :
    ∃ i, decode s.cmd = .ok i ∧ finishOf i = some finish := by
  unfold State.suspended at h
  split at h
  next i hi =>
    split at h
    next => exact ⟨i, hi, h⟩
    next => cases h
  next => cases h

theorem resume_cases {s t : State} (h : resume s = .next t) :
    ∃ i finish, decode s.cmd = .ok i ∧ finishOf i = some finish ∧ t = finish s.receive := by
  unfold resume at h
  split at h
  next finish hs =>
    cases h
    obtain ⟨i, hi, hf⟩ := State.suspended_cases hs
    exact ⟨i, finish, hi, hf, rfl⟩
  next => cases h

theorem step_cases {s t : State} (h : step s = .next t) : Stepped s t := by
  unfold step at h
  split at h
  next hbusy =>
    unfold busyStep at h
    split at h
    next rest hin => cases h; exact .reset rest hin rfl
    next =>
      obtain ⟨i, finish, hi, hf, ht⟩ := resume_cases h
      exact .resumed i finish hbusy hi hf ht
  next hbusy =>
    have hfree : s.busy = false := by simpa using hbusy
    unfold idleStep at h
    split at h
    next => cases h; exact .idle hfree rfl
    next rest hin => cases h; exact .reset rest hin rfl
    next w rest _ =>
      unfold runWord at h
      split at h
      next i hi => exact .legal w rest i hfree hi h
      next => cases h; exact .illegal w rest hfree rfl

theorem State.afterReset_sound (epoch : Nat) (clock : Time) (rxq : List Byte) (moves : List Move) (drifts : List Time)
    (moveCount driftCount : Nat) (inputs : List Input) :
    Sound (State.afterReset epoch clock rxq moves drifts moveCount driftCount inputs) :=
  ⟨Memory.wf_nil, Memory.wf_nil, Config.params.defaultAddr_le, BitVec.extractLsb'_zero, Nat.zero_le _⟩

/-- Whatever the environment and the Host bring, the state after reset meets the invariant (R32, R240). -/
theorem State.afterReset_stateInv (epoch : Nat) (clock : Time) (rxq : List Byte) (moves : List Move)
    (drifts : List Time) (moveCount driftCount : Nat) (inputs : List Input) :
    StateInv (State.afterReset epoch clock rxq moves drifts moveCount driftCount inputs) :=
  (State.afterReset_sound ..).stateInv_of_idle rfl rfl

theorem State.resetInput_stateInv (s : State) : StateInv s.resetInput := State.afterReset_stateInv ..

theorem Sound.betweenCommands {s : State} (h : Sound s) : Sound s.betweenCommands := { h with }

theorem Sound.withInputs {s : State} (h : Sound s) (rest : List Input) : Sound { s with inputs := rest } := { h with }

/-- An illegal word is answered by raising `IllegalCommand` (R67). -/
theorem Sound.illegalWord {s : State} (h : Sound s) (w : CommandWord) : StateInv (s.illegalWord w) :=
  Sound.stateInv_of_idle ⟨h.txbuf, h.respbuf, h.addr, h.airp, ErrorClass.code_le .illegal⟩ rfl rfl

/-- Settles O11: the reset state is written out field by field. -/
theorem resetValuesAreThoseOfTheTable : Obligations.ResetValuesAreThoseOfTheTable :=
  ⟨rfl, rfl, rfl, rfl, rfl, rfl, rfl, rfl, rfl, rfl, rfl⟩

/-- Settles O13. -/
theorem resetStateMeetsTheInvariant : Obligations.ResetStateMeetsTheInvariant := State.afterReset_stateInv ..

/-- Settles O14: a step resets, goes on with a receive loop, lets the environment move, or takes a word, and each keeps
the invariant's registers; a command ends idle unless its exchange is cut in its receive loop. -/
theorem everyStepKeepsTheInvariant : Obligations.EveryStepKeepsTheInvariant := by
  intro s t hinv hstep
  have hs := hinv.sound
  cases step_cases hstep with
  | reset rest _ hnext =>
    subst hnext
    exact State.resetInput_stateInv _
  | resumed i finish hbusy hcmd hf hnext =>
    subst hnext
    have hin := (hinv.waiting hbusy).inLoop hbusy hcmd
    exact finish_stateInv hf hin.receive hs.receive State.receive_unfinished
  | idle hfree hnext =>
    subst hnext
    exact hs.betweenCommands.stateInv_of_idle (hinv.idle hfree) hfree
  | legal w rest i _ _ hnext => exact exec_stateInv (hs.withInputs rest).betweenCommands hnext
  | illegal w rest _ hnext =>
    subst hnext
    exact (hs.withInputs rest).betweenCommands.illegalWord w

end Sys2Proof.Machine
end

section
/-! PROOFS. Which commands write which registers (spec/10_state.md R31, spec/41_request.md R131), and what a
transmission leaves in `TXI`. -/

namespace Sys2Proof.Machine

/-! ### The table of R31 -/

/-- The table of R31 for command `i` between `s` and `t`: each register and buffer is unchanged, or `i` is listed for
it. -/
structure WritesListed (i : Instr) (s t : State) : Prop where
  addr : t.addr = s.addr ∨ (∃ a, i = .beginAddr a) ∨ ∃ a, i = .setAddress a
  specific : t.specific = s.specific ∨ i = .setGenericAddress ∨ i = .setSpecificAddress
  timeout : t.timeout = s.timeout ∨ ∃ ms, i = .setTimeout ms
  suppress : t.suppress = s.suppress ∨ ∃ f, i = .suppressError f
  lastread : t.lastread = s.lastread ∨ Reads i
  gas : t.gas = s.gas ∨ i = .getGasConcentration
  airp : t.airp = s.airp ∨ i = .getAirPressureReference
  crc : SameCrc s t ∨ (∃ n, i = .crc16 n) ∨ (finishOf i).isSome = true
  txbuf : SameBytes .txbuf s t ∨ (∃ k b, i = .wrbuf k b) ∨ (finishOf i).isSome = true
  respbuf : SameBytes .respbuf s t ∨ (finishOf i).isSome = true
  sequencer : SameSequencer s t ∨ (finishOf i).isSome = true

theorem SameBytes.ofTxbuf {s t : State} (hbuf : t.txbuf = s.txbuf) (hepoch : t.epoch = s.epoch) :
    SameBytes .txbuf s t := fun a => by simp only [State.memRead, hbuf, hepoch]

theorem SameBytes.ofRespbuf {s t : State} (hbuf : t.respbuf = s.respbuf) (hepoch : t.epoch = s.epoch) :
    SameBytes .respbuf s t := fun a => by simp only [State.memRead, hbuf, hepoch]

theorem WritesAlone.listed {i : Instr} {s t : State} (h : WritesAlone i s t) : WritesListed i s t where
  addr := h.addr.imp_right fun ⟨a, hi, _⟩ => .inl ⟨a, hi⟩
  specific := h.specific
  timeout := h.timeout
  suppress := h.suppress
  lastread := .inl h.cached.1
  gas := .inl h.cached.2.1
  airp := .inl h.cached.2.2
  crc := h.crc.imp (fun ⟨hhi, hlo, hidx⟩ => ⟨hhi, hlo, hidx⟩) .inl
  txbuf := h.txbuf.imp (SameBytes.ofTxbuf · h.epoch) .inl
  respbuf := .inl (.ofRespbuf h.respbuf h.epoch)
  sequencer := by
    obtain ⟨htxlen, hrxlen, htxi, hrxn, htstart⟩ := h.sequencer
    exact .inl ⟨htxlen, hrxlen, htxi, hrxn, htstart⟩

/-! ### What a command with an exchange leaves -/

/-- What no exchange and no finish writes (R131, R143). -/
theorem finish_exchange_same {i : Instr} {finish : ExchangeOutcome × State → State} (hf : finishOf i = some finish)
    (u : State) (cl n : Nat) :
    (finish (u.exchange cl n)).specific = u.specific ∧ (finish (u.exchange cl n)).timeout = u.timeout ∧
      (finish (u.exchange cl n)).suppress = u.suppress ∧ (finish (u.exchange cl n)).lastread = u.lastread := by
  obtain ⟨hconfig, hcached, -⟩ := u.exchange_same cl n
  generalize u.exchange cl n = r at *
  obtain ⟨ph, re, st, b, g, a, ad, heq⟩ := finish_eq hf r
  rw [heq]
  exact ⟨hconfig.specific, hconfig.timeout, hconfig.suppress, hcached.lastread⟩

theorem finish_exchange_listed {i : Instr} {finish : ExchangeOutcome × State → State} (hf : finishOf i = some finish)
    (s : State) (cl n : Nat) : WritesListed i s (finish ((s.prepared i).exchange cl n)) := by
  have hsome : (finishOf i).isSome = true := by rw [hf]; rfl
  obtain ⟨lr, c, d, dc, ph, m, hlr, hprep⟩ := s.prepared_eq i
  obtain ⟨hconfig, hcached, -⟩ := (s.prepared i).exchange_same cl n
  obtain ⟨haddr, hgas, hairp, -⟩ := finish_finishes hf ((s.prepared i).exchange cl n)
  obtain ⟨hspecific, htimeout, hsuppress, hlastread⟩ := finish_exchange_same hf (s.prepared i) cl n
  rw [hconfig.addr] at haddr
  rw [hcached.gas] at hgas
  rw [hcached.airp] at hairp
  generalize finish ((s.prepared i).exchange cl n) = t at *
  rw [hprep] at haddr hgas hairp hspecific htimeout hsuppress hlastread
  exact
    { addr := haddr.imp_right fun hi => .inr ⟨_, hi⟩
      specific := .inl hspecific
      timeout := .inl htimeout
      suppress := .inl hsuppress
      lastread := hlr.imp_left hlastread.trans
      gas := hgas
      airp := hairp.imp_right And.left
      crc := .inr (.inr hsome)
      txbuf := .inr (.inr hsome)
      respbuf := .inr hsome
      sequencer := .inr hsome }

theorem exec_listed {i : Instr} {s t : State} (h : exec i s = .next t) : WritesListed i s t := by
  rcases exec_cases h with ⟨-, finish, hf, rfl⟩ | halone
  · exact finish_exchange_listed hf s _ _
  · exact halone.writes.listed

/-! ### A later step -/

/-- A step of a command that waits in its receive loop goes on with it (R119, R246). -/
theorem Resumes.step_eq {i : Instr} {s t : State} (h : Resumes i s) (hstep : step s = .next t) :
    ∃ finish, finishOf i = some finish ∧ t = finish s.receive := by
  cases step_cases hstep with
  | reset rest hin _ => exact absurd hin (h.noReset rest)
  | resumed j finish _ hcmd hf hnext =>
    obtain rfl : i = j := Except.ok.inj (h.command.symm.trans hcmd)
    exact ⟨finish, hf, hnext⟩
  | idle hfree | legal _ _ _ hfree | illegal _ _ hfree => exact absurd h.busy (by simp [hfree])

/-- All that a finish writes after a receive loop that was gone on with (R119 to R123, R131). -/
theorem finish_receive_eq {i : Instr} {finish : ExchangeOutcome × State → State} (hf : finishOf i = some finish)
    (s : State) :
    ∃ ph re st b g a ad m r c q mv mc d dc, finish s.receive =
      { s with
        phase := ph, result := re, status := st, busy := b, gas := g, airp := a, addr := ad
        respbuf := m, rxn := r, clock := c, rxq := q, moves := mv, moveCount := mc, drifts := d, driftCount := dc } := by
  obtain ⟨m, r, c, q, mv, mc, d, dc, hloop⟩ := State.receiveLoop_eq (s.moves.length + 1) s
  obtain ⟨ph, re, st, b, g, a, ad, hfin⟩ := finish_eq hf s.receive
  refine ⟨ph, re, st, b, g, a, ad, m, r, c, q, mv, mc, d, dc, ?_⟩
  rw [hfin, State.receive, hloop]

/-- Which commands write the registers that a response is decoded into, in a later step (R151, R153, R157). -/
theorem finish_receive_decoded {i : Instr} {finish : ExchangeOutcome × State → State} (hf : finishOf i = some finish)
    (s : State) :
    ((finish s.receive).addr = s.addr ∨ ∃ a, i = .setAddress a) ∧
      ((finish s.receive).gas = s.gas ∨ i = .getGasConcentration) ∧
      ((finish s.receive).airp = s.airp ∨ i = .getAirPressureReference) := by
  obtain ⟨haddr, hgas, hairp, -⟩ := finish_finishes hf s.receive
  have hsame : s.receive.2.addr = s.addr ∧ s.receive.2.gas = s.gas ∧ s.receive.2.airp = s.airp := by
    obtain ⟨m, r, c, q, mv, mc, d, dc, hloop⟩ := State.receiveLoop_eq (s.moves.length + 1) s
    rw [State.receive, hloop]
    exact ⟨rfl, rfl, rfl⟩
  rw [hsame.1] at haddr
  rw [hsame.2.1] at hgas
  rw [hsame.2.2] at hairp
  exact ⟨haddr.imp_right fun hi => ⟨_, hi⟩, hgas, hairp.imp_right And.left⟩

/-- Settles O53: in its first step a command writes what R31 lists for it, in a later one what the rest of its receive
loop and its decode write. -/
theorem onlyTheListedCommandsWriteEachRegister : Obligations.OnlyTheListedCommandsWriteEachRegister := by
  refine ⟨fun i s t hexec => ?_, fun i s t hres hstep => ?_⟩
  · have h := exec_listed hexec
    exact ⟨h.addr.resolve_left, h.specific.resolve_left, h.timeout.resolve_left, h.suppress.resolve_left,
      h.lastread.resolve_left, h.gas.resolve_left, h.airp.resolve_left, h.crc.resolve_left, h.txbuf.resolve_left,
      h.respbuf.resolve_left, h.sequencer.resolve_left⟩
  · obtain ⟨finish, hf, rfl⟩ := hres.step_eq hstep
    obtain ⟨haddr, hgas, hairp⟩ := finish_receive_decoded hf s
    refine ⟨haddr.resolve_left, hgas.resolve_left, hairp.resolve_left, ?_⟩
    obtain ⟨_, _, _, _, _, _, _, _, _, _, _, _, _, _, _, heq⟩ := finish_receive_eq hf s
    rw [heq]
    exact ⟨rfl, rfl, rfl, rfl, ⟨rfl, rfl, rfl⟩, fun _ => rfl, rfl, rfl, rfl, rfl⟩

/-! ### The transmit index -/

/-- What the transmission of `cl` bytes leaves in `TXLOG`, `TXI` and `TXLEN` (R23, R24, R116, log 9). -/
theorem State.exchange_transmitted (u : State) (cl n : Nat) (h4 : 4 ≤ cl) (h24 : cl ≤ 24) :
    (u.exchange cl n).2.txlog.length = u.txlog.length + cl ∧ (u.exchange cl n).2.txi.toNat = cl ∧
      (u.exchange cl n).2.txi = (u.exchange cl n).2.txlen := by
  have hsent := u.exchange_sent cl n h4 h24
  have htxi : (u.exchange cl n).2.txi.toNat = cl := by
    rw [u.exchange_txi, BitVec.toNat_ofNat]
    omega
  refine ⟨?_, htxi, BitVec.eq_of_toNat_eq (htxi.trans hsent.txlen.symm)⟩
  rw [hsent.log, List.length_append, State.bytes_length]

/-- Settles O56: only a command with an exchange transmits, and its transmit phase leaves `TXI` at `TXLEN`. -/
theorem transmitIndexIsLeftAtTheCommandLength : Obligations.TransmitIndexIsLeftAtTheCommandLength := by
  intro i s t hexec hsent
  rcases exec_cases hexec with ⟨hx, finish, hf, rfl⟩ | halone
  · obtain ⟨h4, h24, -⟩ := hx.lengths
    obtain ⟨lr, c, d, dc, ph, m, -, hprep⟩ := s.prepared_eq i
    have hlog : (s.prepared i).txlog = s.txlog := by rw [hprep]
    obtain ⟨hlen, htxi, heq⟩ := (s.prepared i).exchange_transmitted (exchangeLengths i).1 (exchangeLengths i).2 h4 h24
    rw [hlog] at hlen
    generalize (s.prepared i).exchange (exchangeLengths i).1 (exchangeLengths i).2 = r at *
    obtain ⟨ph, re, st, b, g, a, ad, hfin⟩ := finish_eq hf r
    rw [hfin]
    exact ⟨(congrArg (s.txlog.length + ·) htxi).trans hlen.symm, heq⟩
  · exact absurd halone.writes.txlog hsent

end Sys2Proof.Machine
end

section
/-! PROOFS. The error-suppression flag (spec/10_state.md R14, spec/43_config.md R190): every operation but the two
commands of the flag does the same whatever the flag is. -/

namespace Sys2Proof.Machine

/-- The state with another value of `SUPPRESS` (R14). -/
def State.withSuppress (f : Bool) (s : State) : State := { s with suppress := f }

theorem ite_withSuppress {c : Prop} [Decidable c] {f : Bool} {x y x' y' : State} (hx : x' = x.withSuppress f)
    (hy : y' = y.withSuppress f) : (if c then x' else y') = (if c then x else y).withSuppress f := by
  rw [hx, hy, apply_ite (State.withSuppress f)]

/-! ### The operations on the buffers and the CRC unit -/

theorem State.txWrite_withSuppress (f : Bool) (s : State) (a : Nat) (b : Byte) :
    (s.withSuppress f).txWrite a b = (s.txWrite a b).withSuppress f := by
  unfold State.txWrite
  split_ifs <;> rfl

theorem State.respWrite_withSuppress (f : Bool) (s : State) (a : Nat) (b : Byte) :
    (s.withSuppress f).respWrite a b = (s.respWrite a b).withSuppress f := by
  unfold State.respWrite
  split_ifs <;> rfl

theorem State.crcUnit_withSuppress (f : Bool) (s : State) (n : Nat) :
    (s.withSuppress f).crcUnit n = (s.crcUnit n).withSuppress f := by
  have hfold (l : List Byte) (u : State) :
      l.foldl State.crcUnitStep (u.withSuppress f) = (l.foldl State.crcUnitStep u).withSuppress f := by
    induction l generalizing u with
    | nil => rfl
    | cons b l ih => exact ih (u.crcUnitStep b)
  exact hfold (s.bytes .txbuf n) s.crcUnitInit

theorem State.build_withSuppress (f : Bool) (s : State) (p : Params) (op : SensorOp) (x : Word32) :
    (s.withSuppress f).build p op x = (s.build p op x).withSuppress f := by
  have hput (n : Nat) (u : State) :
      State.putTemplate p op x n (u.withSuppress f) = (State.putTemplate p op x n u).withSuppress f := by
    induction n with
    | zero => rfl
    | succ n ih => rw [State.putTemplate, ih, State.txWrite_withSuppress, State.putTemplate]
  exact hput (p.cmdLen op) (s.setPhase .build)

/-! ### The exchange -/

theorem State.completeFrame_withSuppress (f : Bool) (s : State) (cl n : Nat) :
    (s.withSuppress f).completeFrame cl n = (s.completeFrame cl n).withSuppress f := by
  have hput (u : State) : (u.withSuppress f).putAddress = u.putAddress.withSuppress f := u.txWrite_withSuppress f 0 _
  have hcrc (u : State) : (u.withSuppress f).frameCrc = u.frameCrc.withSuppress f :=
    (u.setPhase .crc).crcUnit_withSuppress f _
  have happend (u : State) : (u.withSuppress f).appendCrc = u.appendCrc.withSuppress f := by
    unfold State.appendCrc
    rw [show (u.withSuppress f).setPhase .append = (u.setPhase .append).withSuppress f from rfl,
      State.txWrite_withSuppress, State.txWrite_withSuppress]
    rfl
  unfold State.completeFrame
  rw [show (s.withSuppress f).enter cl n = (s.enter cl n).withSuppress f from rfl, hput, hcrc, happend]

theorem State.transmitBytes_withSuppress (f : Bool) (n : Nat) (s : State) :
    State.transmitBytes n (s.withSuppress f) = (State.transmitBytes n s).withSuppress f := by
  induction n generalizing s with
  | zero => rfl
  | succ n ih => exact ih s.transmitByte

theorem State.sendFrame_withSuppress (f : Bool) (s : State) (cl n : Nat) :
    (s.withSuppress f).sendFrame cl n = (s.sendFrame cl n).withSuppress f := by
  have htransmit (u : State) : (u.withSuppress f).transmit = u.transmit.withSuppress f :=
    State.transmitBytes_withSuppress f u.txlen.toNat { u with phase := .tx, txi := 0 }
  have hstart (u : State) : (u.withSuppress f).startReceive = u.startReceive.withSuppress f := rfl
  unfold State.sendFrame
  rw [State.completeFrame_withSuppress, htransmit, hstart]

theorem State.iterate_withSuppress (f : Bool) (s : State) : (s.withSuppress f).iterate = s.iterate.withSuppress f := by
  have hpoll (u : State) : (u.withSuppress f).poll = u.poll.withSuppress f := by
    cases hq : u.rxq with
    | nil => rw [State.poll_nil hq, State.poll_nil (s := u.withSuppress f) hq]
    | cons b q =>
      rw [State.poll_cons hq, State.poll_cons (s := u.withSuppress f) hq, State.respWrite_withSuppress]
      rfl
  unfold State.iterate
  rw [show (s.withSuppress f).sample = s.sample.withSuppress f from rfl, hpoll]
  rfl

theorem State.receiveLoop_withSuppress (f : Bool) (n : Nat) (s : State) :
    State.receiveLoop n (s.withSuppress f) = (State.receiveLoop n s).map id (State.withSuppress f) := by
  induction n generalizing s with
  | zero =>
    unfold State.receiveLoop
    rw [apply_ite (Prod.map id (State.withSuppress f))]
    rfl
  | succ n ih =>
    have hloop (u : State) : State.receiveLoop (n + 1) u =
        if u.rxn < u.rxlen then
          if u.sample.deadlinePassed = true then (.timeout, u.sample) else State.receiveLoop n u.iterate
        else (.success, u) := rfl
    rw [hloop, hloop, State.iterate_withSuppress, ih, apply_ite (Prod.map id (State.withSuppress f)),
      apply_ite (Prod.map id (State.withSuppress f))]
    rfl

theorem State.exchange_withSuppress (f : Bool) (s : State) (cl n : Nat) :
    (s.withSuppress f).exchange cl n = (s.exchange cl n).map id (State.withSuppress f) := by
  have hreceive (u : State) : (u.withSuppress f).receive = u.receive.map id (State.withSuppress f) :=
    State.receiveLoop_withSuppress f (u.moves.length + 1) u
  unfold State.exchange
  rw [State.sendFrame_withSuppress, hreceive]

theorem finish_withSuppress {i : Instr} {finish : ExchangeOutcome × State → State} (hf : finishOf i = some finish)
    (f : Bool) (r : ExchangeOutcome × State) :
    finish (r.map id (State.withSuppress f)) = (finish r).withSuppress f := by
  obtain ⟨o, e⟩ := r
  cases o with
  | waiting => exact (finish_waiting hf _).trans (congrArg (State.withSuppress f) (finish_waiting hf e).symm)
  | timeout => exact (finish_timeout hf _).trans (congrArg (State.withSuppress f) (finish_timeout hf e).symm)
  | success =>
    cases i <;> cases hf
    case getGasConcentration.refl => exact ite_withSuppress rfl rfl
    case setSinglePointCorrection.refl => exact ite_withSuppress rfl rfl
    case setSelfCalibrationHours.refl => exact ite_withSuppress rfl rfl
    all_goals rfl

/-! ### The commands -/

theorem State.prepared_withSuppress (f : Bool) (s : State) (i : Instr) :
    (s.withSuppress f).prepared i = (s.prepared i).withSuppress f := by
  have hadm : (s.withSuppress f).admitted i = (s.admitted i).withSuppress f := by cases i <;> rfl
  have hpack (u : State) : (u.withSuppress f).packOperand i = (u.packOperand i).withSuppress f := by
    cases i with
    | setAirPressureReference v =>
      simp only [State.packOperand, State.put24le, State.txWrite_withSuppress]
    | setSelfCalibrationHours h =>
      simp only [State.packOperand, State.put16le, State.txWrite_withSuppress]
    | _ => rfl
  unfold State.prepared
  split
  next => rw [hadm, State.build_withSuppress, hpack]
  next => exact hadm

theorem exchanges_withSuppress (f : Bool) (s : State) (i : Instr) : Exchanges (s.withSuppress f) i ↔ Exchanges s i := by
  cases i <;> rfl

theorem raise_of_check_withSuppress {c : Bool} (hc : ¬ c = true) (f : Bool) (s u u' : State) (i : Instr) (e : ErrorClass)
    (r : Word32) :
    (if c = true then u' else ((s.withSuppress f).issue i).raise e r) =
      (if c = true then u else (s.issue i).raise e r).withSuppress f := by
  rw [if_neg hc, if_neg hc]
  rfl

/-- A command without an exchange does the same whatever the flag is (R190). -/
theorem exec_withSuppress_of_not_exchanges {i : Instr} {s t : State} (f : Bool) (hset : ∀ g, i ≠ .suppressError g)
    (hget : i ≠ .getSuppressError) (hx : ¬ Exchanges s i) (h : exec i s = .next t) :
    exec i (s.withSuppress f) = .next (t.withSuppress f) := by
  cases i with
  | suppressError g => exact absurd rfl (hset g)
  | getSuppressError => exact absurd rfl hget
  | isConnected => cases h
  | getAddress | getSinglePointCorrectionReady | openSelfCalibration | closeSelfCalibration
  | getSelfCalibrationStatus | getSelfCalibrationHours => exact absurd trivial hx
  | setAddress a => cases h; exact congrArg _ (raise_of_check_withSuppress (mt addressOk_iff.1 hx) ..)
  | setAirPressureReference v => cases h; exact congrArg _ (raise_of_check_withSuppress (mt airPressureOk_iff.1 hx) ..)
  | setSinglePointCorrection v => cases h; exact congrArg _ (raise_of_check_withSuppress (mt correctionOk_iff.1 hx) ..)
  | setSelfCalibrationHours x => cases h; exact congrArg _ (raise_of_check_withSuppress (mt hoursOk_iff.1 hx) ..)
  | request cl rl => cases h; exact congrArg _ (raise_of_check_withSuppress (mt requestLengthsOk_iff.1 hx) ..)
  | getAirPressureReference =>
    cases h
    have hcached (u : State) (hu : ¬ Exchanges u .getAirPressureReference) :
        runGetAirPressureReference Config.params u = _ := if_pos (State.inRateWindow_iff.2 hu)
    exact congrArg _ ((hcached (s.withSuppress f) hx).trans (congrArg (State.withSuppress f) (hcached s hx).symm))
  | getGasConcentration =>
    cases h
    have hcached (u : State) (hu : ¬ Exchanges u .getGasConcentration) :
        runGetGasConcentration Config.params u = _ := if_pos (State.inRateWindow_iff.2 hu)
    exact congrArg _ ((hcached (s.withSuppress f) hx).trans (congrArg (State.withSuppress f) (hcached s hx).symm))
  | beginAddr a => cases h; exact congrArg Host.Outcome.next (ite_withSuppress rfl rfl)
  | rdbuf k => cases h; exact congrArg Host.Outcome.next (ite_withSuppress rfl rfl)
  | crc16 n =>
    have hcrc := (s.issue (.crc16 n)).crcUnit_withSuppress f n.toNat
    cases h
    exact congrArg Host.Outcome.next (ite_withSuppress (congrArg (fun u => u.complete (halfResult u.crcResult)) hcrc) rfl)
  | wrbuf k b =>
    have hwrite := (s.issue (.wrbuf k b)).txWrite_withSuppress f k.toNat b
    cases h
    exact congrArg Host.Outcome.next (ite_withSuppress (congrArg (fun u => u.complete 0) hwrite) rfl)
  | setGenericAddress | setSpecificAddress | useSpecificAddress | setTimeout | getTimeout | lastRead | getType
  | lastError => cases h; rfl

/-- Settles O52: the frame, the exchange and the finish of a command with an exchange commute with setting the flag, and
the other commands do so each by its own few operations. -/
theorem suppressFlagHasNoEffectOnOtherCommands : Obligations.SuppressFlagHasNoEffectOnOtherCommands := by
  intro i f s t hset hget h
  show exec i (s.withSuppress f) = .next (t.withSuppress f)
  by_cases hx : Exchanges s i
  · obtain ⟨finish, hf⟩ := hx.hasFinish
    rw [exec_of_exchanges hx hf] at h
    cases h
    rw [exec_of_exchanges ((exchanges_withSuppress f s i).2 hx) hf, State.prepared_withSuppress,
      State.exchange_withSuppress, finish_withSuppress hf]
  · exact exec_withSuppress_of_not_exchanges f hset hget hx h

end Sys2Proof.Machine
end

section
/-! PROOFS. The Clock and the receive loop's deadline (spec/20_memory.md R49, spec/41_request.md R119 to R130): the
environment's moves advance the Clock without bound, and so the loop ends or misses the wrap; and what a step does with
a legal word from the Host (spec/30_encoding.md R60). -/

namespace Sys2Proof.Machine

/-! ### A legal word from the Host -/

theorem idleStep_of_word {s : State} {w : CommandWord} {rest : List Input} (hinputs : s.inputs = .command w :: rest) :
    idleStep s = runWord w { s with inputs := rest }.betweenCommands := by
  simp [idleStep, hinputs]

theorem runWord_of_legal {w : CommandWord} {i : Instr} (hdecode : decode w = .ok i) (s : State) :
    runWord w s = exec i s := by
  simp [runWord, hdecode]

/-- Settles O5. -/
theorem stepRunsTheDecodedCommand : Obligations.StepRunsTheDecodedCommand := by
  intro s w rest i hbusy hinputs hdecode
  rw [step_of_not_busy hbusy, idleStep_of_word hinputs, runWord_of_legal hdecode]

/-! ### The Clock is live -/

/-- Where a sequence of milliseconds is positive again and again, its partial sums pass every bound. -/
theorem exists_le_sum_range {f : Nat → Nat} (hf : ∀ k, ∃ j, k ≤ j ∧ 0 < f j) (ms : Nat) :
    ∃ k, ms ≤ ((List.range k).map f).sum := by
  induction ms with
  | zero => exact ⟨0, Nat.zero_le _⟩
  | succ ms ih =>
    obtain ⟨k, hk⟩ := ih
    obtain ⟨j, hkj, hj⟩ := hf k
    have hmono : ((List.range k).map f).sum ≤ ((List.range j).map f).sum :=
      ((List.range_sublist.2 hkj).map f).sum_le_sum fun _ _ => Nat.zero_le _
    exact ⟨j + 1, by rw [List.sum_range_succ]; omega⟩

theorem State.moveAt_of_script_over {s : State} {j : Nat} (h : s.moves.length ≤ j) (log : List Byte) :
    s.moveAt j log = Config.freeMove (s.moveCount + j) log :=
  List.getD_eq_default _ _ h

/-- After any number of moves, and after the script, there is a move that advances the Clock (R49, log 20). -/
theorem State.exists_moveAt_advances (s : State) (log : Nat → List Byte) (k : Nat) :
    ∃ j, k ≤ j ∧ 0 < (s.moveAt j (log j)).advance.toNat := by
  obtain ⟨n, htick⟩ := Config.tickDue_after (s.moveCount + (s.moves.length + k))
  refine ⟨s.moves.length + k + n, by omega, ?_⟩
  rw [State.moveAt_of_script_over (by omega)]
  exact Config.freeMove_advances (by rwa [← Nat.add_assoc]) _

/-- Settles O57: once the script is over, a guaranteed tick comes again and again. -/
theorem clockIsLive : Obligations.ClockIsLive := fun s log ms => exists_le_sum_range (s.exists_moveAt_advances log) ms

/-! ### What deadline check number `k` sees -/

theorem State.untilCheck_succ (s : State) (k : Nat) :
    s.untilCheck (k + 1) = s.nextDrift.toNat + s.sample.poll.nextMove.advance.toNat + s.iterate.untilCheck k := rfl

theorem State.iterate_clock_eq (s : State) :
    s.iterate.clock = s.clock + s.nextDrift + s.sample.poll.nextMove.advance := by
  obtain ⟨m, q, r, hpoll⟩ := s.sample.poll_eq
  show s.sample.poll.clock + _ = _
  rw [hpoll]
  rfl

/-- The sample of check number `k` is `untilCheck k` milliseconds from now, modulo 2^32 (R49). -/
theorem State.sample_clock_iterate (k : Nat) (s : State) :
    (State.iterate^[k] s).sample.clock = s.clock + BitVec.ofNat 32 (s.untilCheck k) := by
  induction k generalizing s with
  | zero => simp [State.untilCheck]
  | succ k ih =>
    rw [Function.iterate_succ_apply, ih, State.iterate_clock_eq, State.untilCheck_succ]
    simp [BitVec.ofNat_add, BitVec.add_assoc]

theorem State.iterate_iterate_tstart (k : Nat) (s : State) : (State.iterate^[k] s).tstart = s.tstart := by
  induction k generalizing s with
  | zero => rfl
  | succ k ih => rw [Function.iterate_succ_apply, ih, State.iterate_tstart]

theorem State.iterate_iterate_timeout (k : Nat) (s : State) : (State.iterate^[k] s).timeout = s.timeout := by
  induction k generalizing s with
  | zero => rfl
  | succ k ih => rw [Function.iterate_succ_apply, ih, State.iterate_timeout]

/-- Check number `k` fires where the time gone since `TSTART`, modulo 2^32, is above `TIMEOUT` (R120). -/
theorem State.deadlinePassed_iterate_iff (k : Nat) (s : State) :
    (State.iterate^[k] s).sample.deadlinePassed = true ↔
      s.timeout.toNat < ((s.clock - s.tstart).toNat + s.untilCheck k) % 2 ^ 32 := by
  have helapsed : (State.iterate^[k] s).sample.clock - s.tstart =
      s.clock - s.tstart + BitVec.ofNat 32 (s.untilCheck k) := by
    rw [State.sample_clock_iterate]
    bv_omega
  rw [State.deadlinePassed, decide_eq_true_iff, State.sample_timeout, State.sample_tstart,
    State.iterate_iterate_timeout, State.iterate_iterate_tstart, helapsed, BitVec.lt_def]
  simp

/-! ### The receive loop ends -/

theorem State.receiveLoop_succ (n : Nat) (s : State) :
    State.receiveLoop (n + 1) s =
      if s.rxn < s.rxlen then
        if s.sample.deadlinePassed then (.timeout, s.sample) else State.receiveLoop n s.iterate
      else (.success, s) := rfl

/-- The loop does not outlast a check that fires (R120, R126). -/
theorem State.receiveLoop_ne_waiting {k n : Nat} (hkn : k < n) {s : State}
    (hpassed : (State.iterate^[k] s).sample.deadlinePassed = true) : (State.receiveLoop n s).1 ≠ .waiting := by
  induction n generalizing k s with
  | zero => omega
  | succ n ih =>
    rw [State.receiveLoop_succ]
    split_ifs with hmissing hnow
    · simp
    · cases k with
      | zero => exact absurd hpassed hnow
      | succ k => exact ih (by omega) hpassed
    · simp

/-- At least the environment's moves pass before check number `k`; the drifts before the samples come on top. -/
theorem State.sum_advances_le_untilCheck (k : Nat) (s : State) :
    ((List.range k).map fun j => (s.moveAt j s.txlog).advance.toNat).sum ≤ s.untilCheck k := by
  induction k generalizing s with
  | zero => simp
  | succ k ih =>
    have hrest := ih s.iterate
    simp only [State.iterate_moveAt, State.iterate_txlog] at hrest
    simp only [List.sum_range_succ', Nat.succ_eq_add_one, State.untilCheck_succ, State.sample_poll_nextMove_eq]
    omega

/-- Settles O58: the Clock being live, some check finds more than `TIMEOUT` gone, unwrapped. The first such check
fires, unless what it finds is past the wrap. -/
theorem receiveLoopEndsUnlessTheDeadlineIsMissed : Obligations.ReceiveLoopEndsUnlessTheDeadlineIsMissed := by
  intro s
  have hlate : ∃ k, s.timeout.toNat < (s.clock - s.tstart).toNat + s.untilCheck k := by
    obtain ⟨k, hk⟩ := clockIsLive s (fun _ => s.txlog) (s.timeout.toNat + 1)
    have hsum := s.sum_advances_le_untilCheck k
    exact ⟨k, by omega⟩
  obtain ⟨k, hk, hfirst⟩ : ∃ k, s.timeout.toNat < (s.clock - s.tstart).toNat + s.untilCheck k ∧
      ∀ j, j < k → (s.clock - s.tstart).toNat + s.untilCheck j ≤ s.timeout.toNat :=
    ⟨Nat.find hlate, Nat.find_spec hlate, fun j hj => Nat.le_of_not_lt (Nat.find_min hlate hj)⟩
  refine ⟨k, ?_⟩
  by_cases hwrap : 2 ^ 32 ≤ (s.clock - s.tstart).toNat + s.untilCheck k
  · exact .inr ⟨hwrap, hfirst⟩
  · have hpassed : (State.iterate^[k] s).sample.deadlinePassed = true := by
      rw [State.deadlinePassed_iterate_iff, Nat.mod_eq_of_lt (by omega)]
      exact hk
    exact .inl fun n hn => State.receiveLoop_ne_waiting hn hpassed

end Sys2Proof.Machine
end

section
/-! PROOFS. Legal words (spec/30_encoding.md R61 to R67): a word decodes to a command exactly when the mask and value of
the command's row select it and the command's fields are the word's; and what a step does with a placed word and with
an illegal one. -/

namespace Sys2Proof

/-! ### The two fields of a command word -/

theorem commandWord_opcodeOf_operandOf (w : CommandWord) : commandWord (opcodeOf w) (operandOf w) = w :=
  BitVec.extractLsb'_append_extractLsb'

theorem commandWord_inj {op op' : Byte} {v v' : Word32} :
    commandWord op v = commandWord op' v' ↔ op = op' ∧ v = v' := by
  refine ⟨fun h => ⟨?_, ?_⟩, fun ⟨hop, hv⟩ => by rw [hop, hv]⟩
  · simpa only [Laws.opcodeOf_commandWord] using congrArg opcodeOf h
  · simpa only [Laws.operandOf_commandWord] using congrArg operandOf h

theorem commandWord_and (op op' : Byte) (v v' : Word32) :
    commandWord op v &&& commandWord op' v' = commandWord (op &&& op') (v &&& v') :=
  BitVec.and_append

/-! ### Operands whose bits from `n` up are 0 -/

theorem ushiftRight_eq_zero_iff {v : Word32} {n : Nat} : v >>> n = 0 ↔ v.toNat < 2 ^ n := by
  rw [← BitVec.toNat_inj, BitVec.toNat_ushiftRight, Nat.shiftRight_eq_div_pow]
  exact Nat.div_eq_zero_iff_lt (Nat.two_pow_pos n)

/-- A mask on the bits from `n` up finds them 0 exactly when the format's check does (R62). -/
theorem and_allOnes_shiftLeft_eq_zero_iff {v : Word32} {n : Nat} :
    v &&& BitVec.allOnes 32 <<< n = 0 ↔ v >>> n = 0 := by
  have hle : v.toNat / 2 ^ n * 2 ^ n < 2 ^ 32 := (Nat.div_mul_le_self _ _).trans_lt v.isLt
  rw [← BitVec.shiftLeft_ushiftRight, ← BitVec.toNat_inj, ← BitVec.toNat_inj, BitVec.toNat_shiftLeft,
    BitVec.toNat_ushiftRight, Nat.shiftRight_eq_div_pow, Nat.shiftLeft_eq, Nat.mod_eq_of_lt hle]
  simp

theorem fmtLow_eq_ok_iff {op : Byte} {v : Word32} {n : Nat} {i j : Instr} :
    fmtLow op v n i = .ok j ↔ v >>> n = 0 ∧ i = j := by
  by_cases hv : v >>> n = 0
  · rw [fmtLow, if_pos hv]
    simp [hv]
  · rw [fmtLow, if_neg hv]
    exact ⟨nofun, fun h => absurd h.1 hv⟩

/-- The field of such an operand is the whole of it (R62). -/
theorem setWidth_extract {v : Word32} {n : Nat} (h : v >>> n = 0) : (v.extractLsb' 0 n).setWidth 32 = v := by
  apply BitVec.eq_of_toNat_eq
  rw [BitVec.toNat_setWidth, BitVec.extractLsb'_toNat, Nat.shiftRight_zero,
    Nat.mod_eq_of_lt (ushiftRight_eq_zero_iff.1 h), Nat.mod_eq_of_lt v.isLt]

theorem twoBytes_extract {v : Word32} (h : v >>> 16 = 0) : twoBytes (v.extractLsb' 8 8) (v.extractLsb' 0 8) = v := by
  have hfields : v.extractLsb' 8 8 ++ v.extractLsb' 0 8 = v.extractLsb' 0 16 :=
    BitVec.extractLsb'_append_extractLsb'_eq_extractLsb' rfl
  rw [twoBytes, hfields, setWidth_extract h]

theorem setWidth_ofBool_getLsbD {v : Word32} (h : v >>> 1 = 0) : (BitVec.ofBool (v.getLsbD 0)).setWidth 32 = v := by
  have hfield : BitVec.ofBool (v.getLsbD 0) = v.extractLsb' 0 1 := BitVec.eq_of_getLsbD_eq (by simp)
  rw [hfield, setWidth_extract h]

/-! ### The operand format of a command -/

/-- How many low bits of the operand the format of a command uses; the bits above them must be 0 (R62). -/
def operandBits : Instr → Nat
  | .beginAddr _ | .setAddress _ | .crc16 _ | .rdbuf _ => 8
  | .suppressError _ => 1
  | .setSinglePointCorrection _ | .setSelfCalibrationHours _ | .request _ _ | .wrbuf _ _ => 16
  | .setAirPressureReference _ | .setTimeout _ => 32
  | _ => 0

/-- The command of the same row whose operand fields are those of `v` (R62). -/
def Instr.withOperand (v : Word32) : Instr → Instr
  | .beginAddr _ => .beginAddr (v.extractLsb' 0 8)
  | .setAddress _ => .setAddress (v.extractLsb' 0 8)
  | .setAirPressureReference _ => .setAirPressureReference v
  | .setSinglePointCorrection _ => .setSinglePointCorrection (v.extractLsb' 0 16)
  | .setSelfCalibrationHours _ => .setSelfCalibrationHours (v.extractLsb' 0 16)
  | .setTimeout _ => .setTimeout v
  | .suppressError _ => .suppressError (v.getLsbD 0)
  | .crc16 _ => .crc16 (v.extractLsb' 0 8)
  | .request _ _ => .request (v.extractLsb' 8 8) (v.extractLsb' 0 8)
  | .wrbuf _ _ => .wrbuf (v.extractLsb' 8 8) (v.extractLsb' 0 8)
  | .rdbuf _ => .rdbuf (v.extractLsb' 0 8)
  | i => i

theorem rowOf_withOperand (v : Word32) (i : Instr) : rowOf (i.withOperand v) = rowOf i := by cases i <;> rfl

/-- A row's mask is the opcode and the operand's must-be-zero bits (R62, R66). -/
theorem rowOf_mask (i : Instr) : (rowOf i).mask = commandWord 0xFF (BitVec.allOnes 32 <<< operandBits i) := by
  cases i <;> simp only [rowOf, operandBits] <;> decide

/-- A row's value is its opcode over an operand of 0 (R66). -/
theorem rowOf_value (i : Instr) : (rowOf i).value = commandWord (opcodeOf (rowOf i).value) 0 := by
  cases i <;> simp only [rowOf] <;> decide

/-- A command's own word has the opcode of its row (R66). -/
theorem opcodeOf_encode (i : Instr) : opcodeOf (encode i) = opcodeOf (rowOf i).value := by
  cases i <;> simp only [encode, rowOf, Laws.opcodeOf_commandWord] <;> decide

/-- The operand fields of a command hold all of an operand whose must-be-zero bits are 0 (R62). -/
theorem operandOf_encode_withOperand {v : Word32} {i : Instr} (h : v >>> operandBits i = 0) :
    operandOf (encode (i.withOperand v)) = v := by
  cases i with
  | beginAddr | setAddress | setSinglePointCorrection | setSelfCalibrationHours | crc16 | rdbuf =>
    exact (Laws.operandOf_commandWord _ _).trans (setWidth_extract h)
  | suppressError => exact (Laws.operandOf_commandWord _ _).trans (setWidth_ofBool_getLsbD h)
  | request | wrbuf => exact (Laws.operandOf_commandWord _ _).trans (twoBytes_extract h)
  | setAirPressureReference | setTimeout => exact Laws.operandOf_commandWord _ _
  | _ => exact (Laws.operandOf_commandWord _ _).trans h.symm

/-! ### Which words a row selects, and which decode -/

/-- A row selects the words with its opcode whose must-be-zero bits are 0 (R62, R66). -/
theorem row_selects_iff {w : CommandWord} {i : Instr} :
    w &&& (rowOf i).mask = (rowOf i).value ↔
      opcodeOf w = opcodeOf (rowOf i).value ∧ operandOf w >>> operandBits i = 0 := by
  have hmasked : w &&& (rowOf i).mask =
      commandWord (opcodeOf w) (operandOf w &&& BitVec.allOnes 32 <<< operandBits i) := by
    rw [rowOf_mask, ← commandWord_opcodeOf_operandOf w, commandWord_and, Laws.opcodeOf_commandWord,
      Laws.operandOf_commandWord]
    exact congrArg (commandWord · _) BitVec.and_allOnes
  rw [hmasked, rowOf_value, commandWord_inj, and_allOnes_shiftLeft_eq_zero_iff, Laws.opcodeOf_commandWord]

/-- A word that a row selects is the word of the row's command with the operand fields that it holds. -/
theorem encode_withOperand_operandOf {w : CommandWord} {i : Instr} (h : w &&& (rowOf i).mask = (rowOf i).value) :
    encode (i.withOperand (operandOf w)) = w := by
  obtain ⟨hop, hzero⟩ := row_selects_iff.1 h
  rw [← commandWord_opcodeOf_operandOf (encode _), opcodeOf_encode, rowOf_withOperand, ← hop,
    operandOf_encode_withOperand hzero, commandWord_opcodeOf_operandOf]

/-- A word that a row selects decodes to the row's command with the operand fields that the word holds. -/
theorem decode_of_row_selects {w : CommandWord} {i : Instr} (h : w &&& (rowOf i).mask = (rowOf i).value) :
    decode w = .ok (i.withOperand (operandOf w)) :=
  (congrArg decode (encode_withOperand_operandOf h)).symm.trans (decode_encode _)

/-- One arm of the decoder: the opcode is the one of the row of `i`, the operand's must-be-zero bits are checked, and
the command gets the fields of the operand (R62, R66). -/
theorem selected_of_fmtLow_eq_ok {w : CommandWord} {k n : Nat} {i j : Instr}
    (h : fmtLow (opcodeOf w) (operandOf w) n i = .ok j) (hk : (opcodeOf w).toNat = k)
    (hop : k = (opcodeOf (rowOf i).value).toNat) (hn : n = operandBits i) (hfields : i.withOperand (operandOf w) = i) :
    w &&& (rowOf j).mask = (rowOf j).value ∧ j.withOperand (operandOf w) = j := by
  obtain ⟨hzero, rfl⟩ := fmtLow_eq_ok_iff.1 h
  exact ⟨row_selects_iff.2 ⟨BitVec.eq_of_toNat_eq (hk.trans hop), hn ▸ hzero⟩, hfields⟩

/-- A word decodes to a command exactly when the command's row selects it and the command has the word's fields. -/
theorem decode_eq_ok_iff {w : CommandWord} {i : Instr} :
    decode w = .ok i ↔ w &&& (rowOf i).mask = (rowOf i).value ∧ i.withOperand (operandOf w) = i := by
  constructor
  · intro h
    unfold decode at h
    dsimp only at h
    split at h
    case h_29 => cases h -- an opcode of no row
    all_goals exact selected_of_fmtLow_eq_ok h ‹_› (by simp only [rowOf]; decide) rfl rfl
  · rintro ⟨hrow, hfields⟩
    rw [decode_of_row_selects hrow, hfields]

/-! ### The obligations -/

/-- Settles O1. -/
theorem everyEncodedCommandDecodesToItself : Obligations.EveryEncodedCommandDecodesToItself := decode_encode

/-- Settles O2: the row of the decoded command selects the word, and so the word is that of the row's command with the
word's fields, which the decoded command has. -/
theorem everyLegalWordIsItsCommandsEncoding : Obligations.EveryLegalWordIsItsCommandsEncoding := by
  intro w i hdecode
  obtain ⟨hrow, hfields⟩ := decode_eq_ok_iff.1 hdecode
  have hword := encode_withOperand_operandOf hrow
  rwa [hfields] at hword

/-- Settles O3. -/
theorem decoderAgreesWithMaskAndMatchRows : Obligations.DecoderAgreesWithMaskAndMatchRows :=
  ⟨fun _ _ hdecode => (decode_eq_ok_iff.1 hdecode).1,
    fun w j hrow => ⟨j.withOperand (operandOf w), decode_of_row_selects hrow, rowOf_withOperand _ j⟩⟩

/-- Settles O4: each legal sample is the word of its command, and the two others fail the check of R67 on the operand
and on the opcode. -/
theorem sampleWordsDecodeToTheirCommands : Obligations.SampleWordsDecodeToTheirCommands :=
  ⟨decode_encode (.beginAddr 248), decode_encode .getAddress, decode_encode (.setAirPressureReference 0x442F0000),
    decode_encode (.setSelfCalibrationHours 720), decode_encode (.suppressError true), decode_encode (.request 8 7),
    decode_encode (.wrbuf 23 0xAA), by decide, by decide⟩

end Sys2Proof

namespace Sys2Proof.Machine

/-! ### Placed words and illegal words -/

/-- Settles O6: the placed word is the Host's next input to a block that is not busy, and taking it leaves the inputs
that stood there before. -/
theorem placedWordIsRunByTheNextStep : Obligations.PlacedWordIsRunByTheNextStep := by
  intro s w i hdecode
  exact stepRunsTheDecodedCommand (s.withFetchWord 40 w) (commandOfTable 40 w) s.inputs i rfl rfl hdecode

theorem runWord_of_illegal {w : CommandWord} (hrows : ∀ i, w &&& (rowOf i).mask ≠ (rowOf i).value) (s : State) :
    runWord w s = .next (s.illegalWord w) := by
  cases hdecode : decode w with
  | ok i => exact absurd (decode_eq_ok_iff.1 hdecode).1 (hrows i)
  | error e => simp [runWord, hdecode]

/-- The host-interface registers and `PHASE` may be written without any effect on the rest (R10, R27). -/
theorem sameOutsideHostInterface_of_writes (s : State) (w : CommandWord) (r : Word32) (st : Byte) (ph : Phase)
    (b : Bool) :
    SameOutsideHostInterface s { s with cmd := w, result := r, status := st, phase := ph, busy := b } where
  config := ⟨rfl, rfl, rfl, rfl⟩
  rest :=
    { cached := ⟨rfl, rfl, rfl⟩
      crc := ⟨rfl, rfl, rfl⟩
      sequencer := ⟨rfl, rfl, rfl, rfl, rfl⟩
      tx := fun _ => rfl
      resp := fun _ => rfl
      environment := ⟨rfl, rfl, rfl, rfl, rfl, rfl, rfl⟩
      host := ⟨rfl, rfl⟩ }

/-- All that an illegal word writes (R67). -/
theorem State.illegalWord_eq (s : State) (w : CommandWord) :
    s.illegalWord w = { s with cmd := w, result := 0, status := 4, phase := .idle, busy := false } := rfl

/-- Settles O7: a word that no row selects does not decode, so the step raises `IllegalCommand` after the environment's
move. -/
theorem illegalWordRaisesIllegalCommand : Obligations.IllegalWordRaisesIllegalCommand := by
  refine ⟨fun s w rest hbusy hinputs hrows => ?_, decode_encode .isConnected, fun _ => rfl⟩
  have hstep := step_of_not_busy hbusy
  rw [idleStep_of_word hinputs, runWord_of_illegal hrows, State.illegalWord_eq] at hstep
  exact ⟨_, hstep, rfl, rfl, rfl, rfl, rfl, sameOutsideHostInterface_of_writes _ w 0 4 .idle false⟩

end Sys2Proof.Machine
end

section
/-! PROOFS. The CRC unit (spec/40_crc16.md): the listed tables are the formula's, one step is the reflected-polynomial
step on the 16-bit value, a sequence followed by its CRC has CRC 0, and what `CRC16 n` ends with (R94, R197). -/

namespace Sys2Proof.Machine

/-! ### The listed tables and the formula -/

/-- The 256-entry table of a function of the index. -/
def tableOf (f : Byte → Byte) : List Byte := (List.range 256).map fun k => f (BitVec.ofNat 8 k)

theorem tableOf_getD (f : Byte → Byte) (i : Byte) : (tableOf f).getD i.toNat 0 = f i := by
  have hlt : i.toNat < 256 := i.isLt
  simp [tableOf, List.getD_eq_getElem?_getD, hlt]

theorem hiTable_eq_tableOf : hiTable = tableOf fun i => (crcFormula i).extractLsb' 0 8 := by decide +kernel

theorem loTable_eq_tableOf : loTable = tableOf fun i => (crcFormula i).extractLsb' 8 8 := by decide +kernel

theorem hiEntry_eq (i : Byte) : hiEntry i = (crcFormula i).extractLsb' 0 8 := by
  rw [hiEntry, hiTable_eq_tableOf, tableOf_getD]

theorem loEntry_eq (i : Byte) : loEntry i = (crcFormula i).extractLsb' 8 8 := by
  rw [loEntry, loTable_eq_tableOf, tableOf_getD]

theorem hiEntry_zero : hiEntry 0 = 0 := rfl

theorem loEntry_zero : loEntry 0 = 0 := rfl

/-! ### The 16-bit value of the two accumulators -/

theorem crcValue_toNat (a : Accumulators) : (crcValue a).toNat = a.hi.toNat * 256 + a.lo.toNat := by
  rw [crcValue, BitVec.toNat_append, ← Nat.shiftLeft_add_eq_or_of_lt a.lo.isLt, Nat.shiftLeft_eq]

/-- The two bytes of a 16-bit value, as accumulators, have that value. -/
theorem crcValue_extract (w : Half) : crcValue { hi := w.extractLsb' 8 8, lo := w.extractLsb' 0 8 } = w :=
  (BitVec.extractLsb'_append_extractLsb'_eq_extractLsb' rfl).trans BitVec.extractLsb'_eq_self

theorem crcValue_xor (a b : Accumulators) :
    crcValue a ^^^ crcValue b = crcValue { hi := a.hi ^^^ b.hi, lo := a.lo ^^^ b.lo } :=
  BitVec.xor_append

theorem crcValue_ushiftRight (a : Accumulators) : crcValue a >>> 8 = crcValue { hi := 0, lo := a.hi } := by
  rw [BitVec.ushiftRight_eq_extractLsb'_of_lt (by decide), crcValue_extract_hi]
  rfl

/-- `W(i)` is the pair of table entries, the "high" one in the low byte (R97). -/
theorem crcFormula_eq_crcValue (i : Byte) : crcFormula i = crcValue { hi := loEntry i, lo := hiEntry i } := by
  rw [loEntry_eq, hiEntry_eq, crcValue_extract]

/-- The index of a step from the 16-bit value (R98 (a)). -/
theorem crcValue_xor_extract (a : Accumulators) (b : Byte) :
    (crcValue a ^^^ b.setWidth 16).extractLsb' 0 8 = crcIndex a b := by
  rw [BitVec.extractLsb'_xor, crcValue_extract_lo, BitVec.extractLsb'_setWidth_of_le (by decide),
    BitVec.extractLsb'_eq_self, crcIndex]

/-! ### The empty sequence, and a sequence followed by its CRC -/

theorem crc16_nil : crc16 [] = 0xFFFF := rfl

theorem crc16_append (l m : List Byte) : crc16 (l ++ m) = crcValue (m.foldl crcStep (l.foldl crcStep crcInit)) := by
  rw [crc16, List.foldl_append]

/-- A step with the low accumulator's own byte has index 0: it moves the high accumulator down and clears it. -/
theorem crcStep_lo (a : Accumulators) : crcStep a a.lo = { hi := 0, lo := a.hi } := by
  have hidx : crcIndex a a.lo = 0 := BitVec.xor_self
  rw [crcStep, hidx, loEntry_zero, hiEntry_zero]
  simp

/-- The two accumulators taken as bytes, low first, clear both: after one step the old high byte is the low one. -/
theorem crcFold_lo_hi (a : Accumulators) : [a.lo, a.hi].foldl crcStep a = { hi := 0, lo := 0 } :=
  calc [a.lo, a.hi].foldl crcStep a
      = crcStep (crcStep a a.lo) a.hi := rfl
    _ = crcStep { hi := 0, lo := a.hi } a.hi := by rw [crcStep_lo]
    _ = { hi := 0, lo := 0 } := crcStep_lo _

/-! ### The command -/

theorem State.bytes_zero (s : State) (sp : Space) : s.bytes sp 0 = [] := rfl

theorem exec_crc16 (n : Byte) (s : State) : exec (.crc16 n) s = execCrc16 n s := rfl

theorem State.crcUnit_cmd (s : State) (n : Nat) : (s.crcUnit n).cmd = s.cmd := by
  obtain ⟨k, hk⟩ := s.crcUnit_eq n
  rw [hk]

/-- `CRC16 n` with a length that the buffer holds (R197). -/
theorem execCrc16_of_le {n : Byte} (hn : n.toNat ≤ bufCap) (s : State) :
    execCrc16 n s =
      .next (((s.issue (.crc16 n)).crcUnit n.toNat).complete (halfResult (crc16 (s.bytes .txbuf n.toNat)))) := by
  have hbytes : (s.issue (.crc16 n)).bytes .txbuf n.toNat = s.bytes .txbuf n.toNat :=
    State.bytes_congr fun a _ => s.issue_memRead _ _ a
  rw [execCrc16, if_pos hn, State.crcUnit_result, hbytes]

theorem crc16_ended (n : Byte) (r : Word32) (s : State) :
    Ended (.crc16 n) r 0 (((s.issue (.crc16 n)).crcUnit n.toNat).complete r) where
  cmd := by rw [State.complete_cmd, State.crcUnit_cmd, State.issue_cmd]
  result := rfl
  status := rfl
  phase := rfl
  busy := rfl

/-! ### The obligations -/

/-- Settles O17: the shifted value and `W` of the index are the values of two pairs of bytes, and the xor of the two
pairs is the step's. -/
theorem crcStepIsTheReflectedPolynomialStep : Obligations.CrcStepIsTheReflectedPolynomialStep := by
  intro a b
  rw [crcValue_xor_extract, crcFormula_eq_crcValue, crcValue_ushiftRight, crcValue_xor]
  simp [crcStep]

/-- Settles O18: the two bytes of the CRC are the accumulators' own at the end of the sequence, and they clear both. -/
theorem sequenceWithItsCrcHasCrcZero : Obligations.SequenceWithItsCrcHasCrcZero := by
  intro bytes
  rw [crc16_append, crc16, crcValue_extract_lo, crcValue_extract_hi, crcFold_lo_hi]
  rfl

/-- Settles O16: each listed table is the table of its half of the formula. -/
theorem crcTablesFollowTheFormula : Obligations.CrcTablesFollowTheFormula := fun i => ⟨hiEntry_eq i, loEntry_eq i⟩

/-- Settles O19: over 0 bytes no step runs, whatever `TXBUF` holds. -/
theorem crcOfNothingIsAllOnes : Obligations.CrcOfNothingIsAllOnes := by
  refine ⟨fun s => crcValue_toNat s.accumulators, crc16_nil, fun s => ?_⟩
  have hresult : halfResult (crc16 (s.bytes .txbuf (0 : Byte).toNat)) = 0xFFFF := by
    rw [show (0 : Byte).toNat = 0 from rfl, State.bytes_zero, crc16_nil]
    rfl
  have hexec := (exec_crc16 0 s).trans (execCrc16_of_le (by decide) s)
  rw [hresult] at hexec
  exact ⟨_, hexec, crc16_ended 0 0xFFFF s⟩

end Sys2Proof.Machine
end

section
/-! PROOFS. The receive loop goes on in a later step (spec/41_request.md R119, spec/70_reset_and_hazards.md R246): a
busy step runs it, and how its iterations are divided between steps makes no difference (log 1). -/

namespace Sys2Proof.Machine

/-! ### A busy step -/

theorem step_of_busy {s : State} (hbusy : s.busy = true) : step s = busyStep s := if_pos hbusy

theorem busyStep_of_no_reset {s : State} (hnoReset : ∀ rest, s.inputs ≠ .reset :: rest) : busyStep s = resume s := by
  unfold busyStep
  split
  next rest hinputs => exact absurd hinputs (hnoReset rest)
  next => rfl

/-- A state in phase `RX`, `RXLEN` within the buffer, goes on with its command's own finish (R25, R111). -/
theorem resume_of_finishOf {s : State} {i : Instr} {finish : ExchangeOutcome × State → State} (hphase : s.phase = .rx)
    (hrxlen : s.rxlen.toNat ≤ 24) (hcmd : decode s.cmd = .ok i) (hf : finishOf i = some finish) :
    resume s = .next (finish s.receive) := by
  have hsuspended : s.suspended = some finish := by
    rw [State.suspended, hcmd]
    exact (if_pos ⟨hphase, hrxlen⟩).trans hf
  rw [resume, hsuspended]

/-- Settles O9: neither the loop nor the finish writes the Host's inputs. -/
theorem busyStepResumesTheReceiveLoop : Obligations.BusyStepResumesTheReceiveLoop := by
  intro s i finish hbusy hphase hrxlen hcmd hf hnoReset
  obtain ⟨_, _, _, _, _, _, _, _, _, _, _, _, _, _, _, heq⟩ := finish_receive_eq hf s
  refine ⟨?_, by rw [heq]⟩
  rw [step_of_busy hbusy, busyStep_of_no_reset hnoReset, resume_of_finishOf hphase hrxlen hcmd hf]

/-! ### The loop in parts -/

/-- The completion test comes first (R119). -/
theorem State.receiveLoop_of_complete {s : State} (hdone : ¬ s.rxn < s.rxlen) (n : Nat) :
    State.receiveLoop n s = (.success, s) := by
  cases n with
  | zero => exact if_neg hdone
  | succ n => exact if_neg hdone

/-- Settles O34, by induction on the iterations of the first part: each is the same for the whole and for the part, and
a part that comes to its end finds the loop over or leaves all that is to come to the second part. -/
theorem receiveIterationsMayBeSplitBetweenSteps : Obligations.ReceiveIterationsMayBeSplitBetweenSteps := by
  intro m n s
  induction m generalizing s with
  | zero =>
    rw [Nat.zero_add]
    by_cases hmissing : s.rxn < s.rxlen
    · rw [show State.receiveLoop 0 s = (.waiting, s) from if_pos hmissing]
    · rw [State.receiveLoop_of_complete hmissing n, State.receiveLoop_of_complete hmissing 0]
  | succ m ih =>
    rw [show m + 1 + n = m + n + 1 by omega, State.receiveLoop_succ, State.receiveLoop_succ]
    split_ifs
    · rfl
    · exact ih s.iterate
    · rfl

end Sys2Proof.Machine
end

section
/-! PROOFS. How a command with an exchange ends (spec/41_request.md R119 to R126, spec/42_operations.md R143, R150 to
R167), in its first step and in a later one, in every environment. -/

namespace Sys2Proof.Machine

/-! ### What a finish makes of each outcome -/

/-- The decode rule of command `i`, its whole response being in `RESPBUF` of `e`, leads to `t` (R143, R150 to R167,
R198). -/
structure Decoded (i : Instr) (e t : State) : Prop where
  outcome : (t.result, t.status) = responseOutcome (e.memRead .respbuf) i
  idle : t.phase = .idle ∧ t.busy = false
  addr : (∃ a, i = .setAddress a ∧ t.addr = a) ∨ ((∀ a, i ≠ .setAddress a) ∧ t.addr = e.addr)
  gas : if i = .getGasConcentration ∧ t.status = 0 then t.gas = e.memRead .respbuf 5 ++ e.memRead .respbuf 4
    else t.gas = e.gas
  airp : if i = .getAirPressureReference then t.airp = t.result else t.airp = e.airp

/-- The decode rules of the commands that only answer: `ADDR`, `GAS` and `AIRP` stay. -/
theorem Decoded.ofAnswer {i : Instr} {e t : State}
    (houtcome : (t.result, t.status) = responseOutcome (e.memRead .respbuf) i) (hidle : t.phase = .idle ∧ t.busy = false)
    (hsame : SameDecoded e t) (haddr : ∀ a, i ≠ .setAddress a) (hgas : i ≠ .getGasConcentration)
    (hairp : i ≠ .getAirPressureReference) : Decoded i e t where
  outcome := houtcome
  idle := hidle
  addr := .inr ⟨haddr, hsame.addr⟩
  gas := by rw [if_neg fun h => hgas h.1]; exact hsame.gas
  airp := by rw [if_neg hairp]; exact hsame.airp

theorem State.gasMarkersZero_iff {s : State} :
    s.gasMarkersZero = true ↔ s.memRead .respbuf 8 = 0 ∧ s.memRead .respbuf 9 = 0 ∧ s.memRead .respbuf 10 = 0 ∧
      s.memRead .respbuf 11 = 0 := by
  simp [State.gasMarkersZero, and_assoc]

/-- The finish of a command whose whole response is there follows its decode rule, one command at a time. -/
theorem finish_success {i : Instr} {finish : ExchangeOutcome × State → State} (hf : finishOf i = some finish)
    (e : State) : Decoded i e (finish (.success, e)) := by
  cases i <;> cases hf
  case setAddress a =>
    exact ⟨rfl, ⟨rfl, rfl⟩, .inl ⟨a, rfl, rfl⟩, rfl, rfl⟩
  case getAirPressureReference =>
    exact ⟨rfl, ⟨rfl, rfl⟩, .inr ⟨nofun, rfl⟩, rfl, rfl⟩
  case getGasConcentration =>
    dsimp only [finishGetGasConcentration, conclude]
    split
    next hzero =>
      have hmarkers := State.gasMarkersZero_iff.1 hzero
      exact ⟨(if_pos hmarkers).symm, ⟨rfl, rfl⟩, .inr ⟨nofun, rfl⟩, rfl, rfl⟩
    next hnonzero =>
      have hmarkers := mt State.gasMarkersZero_iff.2 hnonzero
      exact ⟨(if_neg hmarkers).symm, ⟨rfl, rfl⟩, .inr ⟨nofun, rfl⟩, rfl, rfl⟩
  case setSinglePointCorrection v =>
    dsimp only [finishSetSinglePointCorrection, conclude]
    split
    next hzero => exact .ofAnswer (if_pos hzero).symm ⟨rfl, rfl⟩ ⟨rfl, rfl, rfl⟩ nofun nofun nofun
    next hnonzero => exact .ofAnswer (if_neg hnonzero).symm ⟨rfl, rfl⟩ ⟨rfl, rfl, rfl⟩ nofun nofun nofun
  case setSelfCalibrationHours h =>
    dsimp only [finishSetSelfCalibrationHours, conclude]
    split
    next hzero => exact .ofAnswer (if_pos hzero).symm ⟨rfl, rfl⟩ ⟨rfl, rfl, rfl⟩ nofun nofun nofun
    next hnonzero => exact .ofAnswer (if_neg hnonzero).symm ⟨rfl, rfl⟩ ⟨rfl, rfl, rfl⟩ nofun nofun nofun
  case getSinglePointCorrectionReady =>
    have hready (b : Byte) : (boolResult (b == 0), (0 : Byte)) = if b = 0 then (1, 0) else (0, 0) := by
      by_cases hzero : b = 0
      · rw [if_pos hzero, beq_iff_eq.2 hzero]; rfl
      · rw [if_neg hzero, beq_eq_false_iff_ne.2 hzero]; rfl
    exact .ofAnswer (hready _) ⟨rfl, rfl⟩ ⟨rfl, rfl, rfl⟩ nofun nofun nofun
  all_goals exact .ofAnswer rfl ⟨rfl, rfl⟩ ⟨rfl, rfl, rfl⟩ nofun nofun nofun

/-! ### From the end of the receive loop to the end of the command -/

/-- What each outcome of an exchange says of the state it ends in (R119, R120, R123). -/
def OutcomeHolds : ExchangeOutcome × State → Prop
  | (.success, t) => ¬ t.rxn < t.rxlen
  | (.timeout, t) => t.rxn < t.rxlen ∧ t.deadlinePassed = true
  | (.waiting, t) => t.rxn < t.rxlen

theorem State.receiveLoop_outcomeHolds (n : Nat) (s : State) : OutcomeHolds (State.receiveLoop n s) := by
  have hend := State.receiveLoop_end n s
  revert hend
  rcases State.receiveLoop n s with ⟨_ | _ | _, t⟩ <;> exact id

/-- Command `i`, begun in or before `s`, comes out of its receive loop with `r` and has yet to finish. -/
structure LeavesLoop (i : Instr) (s : State) (r : ExchangeOutcome × State) : Prop where
  inLoop : InLoop i r.2
  outcome : OutcomeHolds r
  rxn_le : r.2.rxn ≤ r.2.rxlen
  decoded : SameDecoded s r.2
  result : r.2.result = s.result
  status : r.2.status = s.status

/-- A command is in `CMD` as its own word (R61). -/
theorem InLoop.cmd_eq {i : Instr} {s : State} (h : InLoop i s) : s.cmd = encode i :=
  (everyLegalWordIsItsCommandsEncoding _ _ h.command).symm

/-- A finish leaves `RESPBUF`, the counters, the Clock and `CMD` as the loop left them (R143). -/
theorem finish_kept {i : Instr} {finish : ExchangeOutcome × State → State} (hf : finishOf i = some finish)
    (r : ExchangeOutcome × State) :
    (finish r).cmd = r.2.cmd ∧ (finish r).rxn = r.2.rxn ∧ (finish r).rxlen = r.2.rxlen ∧
      (finish r).memRead .respbuf = r.2.memRead .respbuf := by
  obtain ⟨ph, re, st, b, g, a, ad, heq⟩ := finish_eq hf r
  rw [heq]
  exact ⟨rfl, rfl, rfl, rfl⟩

theorem LeavesLoop.endedBySuccess {i : Instr} {s e : State} {finish : ExchangeOutcome × State → State}
    (hf : finishOf i = some finish) (h : LeavesLoop i s (.success, e)) : EndedBySuccess i s (finish (.success, e)) := by
  obtain ⟨houtcome, ⟨hphase, hbusy⟩, haddr, hgas, hairp⟩ := finish_success hf e
  obtain ⟨hcmd, hrxn, hrxlen, hresp⟩ := finish_kept hf (.success, e)
  have hfull : e.rxn = e.rxlen := BitVec.le_antisymm h.rxn_le (BitVec.not_lt.1 h.outcome)
  generalize finish (.success, e) = t at *
  rw [h.decoded.addr] at haddr
  rw [h.decoded.gas] at hgas
  rw [h.decoded.airp] at hairp
  refine ⟨by rw [hrxn, hrxlen, hfull], ?_, haddr, by rw [hresp]; exact hgas, hairp⟩
  rw [hresp, ← houtcome]
  exact ⟨hcmd.trans h.inLoop.cmd_eq, rfl, rfl, hphase, hbusy⟩

theorem LeavesLoop.endedByTimeout {i : Instr} {s e : State} {finish : ExchangeOutcome × State → State}
    (hf : finishOf i = some finish) (h : LeavesLoop i s (.timeout, e)) : EndedByTimeout i s (finish (.timeout, e)) := by
  rw [finish_timeout hf]
  obtain ⟨hmissing, hpassed⟩ := h.outcome
  exact ⟨hmissing, of_decide_eq_true hpassed, ⟨h.inLoop.cmd_eq, rfl, rfl, rfl, rfl⟩, { h.decoded with }⟩

theorem LeavesLoop.stillWaiting {i : Instr} {s e : State} {finish : ExchangeOutcome × State → State}
    (hf : finishOf i = some finish) (h : LeavesLoop i s (.waiting, e)) : StillWaiting i s (finish (.waiting, e)) := by
  rw [finish_waiting hf]
  obtain ⟨hphase, hbusy, htxlen, hrxlen, hcmd, hvalid⟩ := h.inLoop
  have hwaiting : Waiting e := ⟨hphase, htxlen, hrxlen, h.outcome, i, hcmd, by rw [hf]; rfl, hvalid⟩
  exact ⟨hwaiting, hbusy, h.inLoop.cmd_eq, h.result, h.status, h.decoded⟩

/-- A command ends by its own rule for the outcome of its exchange (R126, R143). -/
theorem LeavesLoop.exchangeEnd {i : Instr} {s : State} {r : ExchangeOutcome × State}
    {finish : ExchangeOutcome × State → State} (hf : finishOf i = some finish) (h : LeavesLoop i s r) :
    ExchangeEnd i s (finish r) := by
  obtain ⟨o, e⟩ := r
  cases o with
  | success => exact .inl (h.endedBySuccess hf)
  | timeout => exact .inr (.inl (h.endedByTimeout hf))
  | waiting => exact .inr (.inr (h.stillWaiting hf))

theorem FrameSent.finish {i : Instr} {s : State} {r : ExchangeOutcome × State} {cl : Nat} {payload : Nat → Byte}
    {finish : ExchangeOutcome × State → State} (hf : finishOf i = some finish) (h : FrameSent s r.2 cl payload) :
    FrameSent s (finish r) cl payload := by
  obtain ⟨ph, re, st, b, g, a, ad, heq⟩ := finish_eq hf r
  rw [heq]
  exact { h with }

theorem Received.finish {i : Instr} {s : State} {r : ExchangeOutcome × State} {from0 : Nat}
    {finish : ExchangeOutcome × State → State} (hf : finishOf i = some finish) (h : Received s r.2 from0) :
    Received s (finish r) from0 := by
  obtain ⟨ph, re, st, b, g, a, ad, heq⟩ := finish_eq hf r
  rw [heq]
  exact { h with }

/-! ### A later step -/

/-- The whole of a later step (R119, R246). -/
theorem Resumes.step_next {i : Instr} {s : State} (h : Resumes i s) :
    ∃ finish, finishOf i = some finish ∧ step s = .next (finish s.receive) := by
  obtain ⟨⟨hphase, -, hrxlen, -, j, hj, hfinish, -⟩, hbusy, hcmd, hnoReset⟩ := h
  obtain rfl : i = j := Except.ok.inj (hcmd.symm.trans hj)
  obtain ⟨finish, hf⟩ := Option.isSome_iff_exists.1 hfinish
  exact ⟨finish, hf, (busyStepResumesTheReceiveLoop s i finish hbusy hphase hrxlen hcmd hf hnoReset).1⟩

theorem Resumes.received {i : Instr} {s : State} (h : Resumes i s) : Received s s.receive.2 s.rxn.toNat :=
  State.receiveLoop_received _ s h.waiting.rxlen (BitVec.le_of_lt h.waiting.unfinished)

theorem Resumes.leavesLoop {i : Instr} {s : State} (h : Resumes i s) : LeavesLoop i s s.receive := by
  have hin := (h.waiting.inLoop h.busy h.command).receive
  have hle : s.receive.2.rxn ≤ s.receive.2.rxlen := h.received.rxn.2
  have houtcome : OutcomeHolds s.receive := State.receiveLoop_outcomeHolds _ s
  obtain ⟨m, r, c, q, mv, mc, d, dc, heq⟩ := State.receiveLoop_eq (s.moves.length + 1) s
  have hsame : SameDecoded s s.receive.2 ∧ s.receive.2.result = s.result ∧ s.receive.2.status = s.status := by
    rw [State.receive, heq]
    exact ⟨⟨rfl, rfl, rfl⟩, rfl, rfl⟩
  exact ⟨hin, houtcome, hle, hsame.1, hsame.2.1, hsame.2.2⟩

/-- Settles O55: the loop goes on from `RXN` and the finish follows its outcome. -/
theorem everyResumedExchangeEndsByItsCommandsRule : Obligations.EveryResumedExchangeEndsByItsCommandsRule := by
  intro i s h
  obtain ⟨finish, hf, hstep⟩ := h.step_next
  refine ⟨finish s.receive, hstep, h.leavesLoop.exchangeEnd hf, h.received.finish hf, ?_⟩
  obtain ⟨_, _, _, _, _, _, _, _, _, _, _, _, _, _, _, heq⟩ := finish_receive_eq hf s
  rw [heq]
  exact ⟨rfl, fun _ => rfl, ⟨rfl, rfl, rfl⟩, rfl, rfl, rfl, rfl, rfl, rfl, rfl, rfl, ⟨rfl, rfl⟩⟩

end Sys2Proof.Machine
end

section
/-! PROOFS. The first step of a command with an exchange (spec/42_operations.md R140 to R167, spec/43_config.md R198):
the frame it builds, what it transmits and receives, and how it ends, in every environment. -/

namespace Sys2Proof.Machine

/-! ### The frame before the address byte and the CRC -/

theorem State.admitted_memRead (s : State) (i : Instr) (sp : Space) (a : Nat) :
    (s.admitted i).memRead sp a = s.memRead sp a := by
  obtain ⟨lr, c, d, dc, -, heq⟩ := s.admitted_eq i
  rw [heq]
  cases sp <;> rfl

/-- The template's bytes stand below the command length, and what was in `TXBUF` from there on (R141). -/
theorem State.admitted_build_memRead (s : State) (i : Instr) (op : SensorOp) (x : Word32) (a : Nat) :
    ((s.admitted i).build Config.params op x).memRead .txbuf a =
      if a < Config.params.cmdLen op then templateBytes op x a else s.memRead .txbuf a := by
  rw [State.build_memRead, State.admitted_memRead]
  exact if_congr (by simp) rfl rfl

/-- The frame of command `i` is laid out in `TXBUF` of `u`, but for the address byte and the CRC (R70, R74, R141), and
the bytes behind it are those of `s`. -/
structure FrameLaidOut (i : Instr) (s u : State) : Prop where
  payload : ∀ a, 1 ≤ a → a + 2 < (exchangeLengths i).1 → u.memRead .txbuf a = framePayload s a i
  behind : ∀ a, (exchangeLengths i).1 ≤ a → u.memRead .txbuf a = s.memRead .txbuf a

/-- A template without operand packing. -/
theorem FrameLaidOut.ofTemplate {i : Instr} {s u : State} {op : SensorOp} {x : Word32}
    (hlen : (exchangeLengths i).1 = Config.params.cmdLen op) (hpayload : ∀ a, framePayload s a i = templateBytes op x a)
    (hread : ∀ a, u.memRead .txbuf a =
      if a < Config.params.cmdLen op then templateBytes op x a else s.memRead .txbuf a) :
    FrameLaidOut i s u where
  payload a _ ha := by rw [hread, if_pos (by omega), hpayload]
  behind a ha := by rw [hread, if_neg (by omega)]

theorem cmdLen_setAirPressureReference_ge : 9 ≤ Config.params.cmdLen .setAirPressureReference :=
  Config.params.cmdLen_ge .setAirPressureReference

/-- Three bytes of the operand at offset 4 (R74 item 1). -/
theorem FrameLaidOut.setAirPressureReference (v : Word32) (s : State) :
    FrameLaidOut (.setAirPressureReference v) s (s.prepared (.setAirPressureReference v)) := by
  have hlen := cmdLen_setAirPressureReference_ge
  have hread (a : Nat) : (s.prepared (.setAirPressureReference v)).memRead .txbuf a =
      if 4 ≤ a ∧ a < 7 then byteOf v (a - 4)
      else if a < Config.params.cmdLen .setAirPressureReference then templateBytes .setAirPressureReference v a
      else s.memRead .txbuf a := by
    have hpack := ((s.admitted (.setAirPressureReference v)).build Config.params .setAirPressureReference
      v).put24le_memRead 4 v (by decide) .txbuf a
    rw [State.admitted_build_memRead] at hpack
    exact hpack.trans (if_congr (by simp) rfl rfl)
  refine ⟨fun a _ ha => ?_, fun a (ha : Config.params.cmdLen _ ≤ a) => ?_⟩
  · have ha' : a + 2 < Config.params.cmdLen .setAirPressureReference := ha
    rw [hread, framePayload]
    by_cases h4 : a = 4
    · subst h4; rfl
    by_cases h5 : a = 5
    · subst h5; rfl
    by_cases h6 : a = 6
    · subst h6; rfl
    rw [if_neg (by omega), if_pos (by omega), if_neg h4, if_neg h5, if_neg h6]
  · rw [hread, if_neg (by omega), if_neg (by omega)]

/-- Two bytes of the operand at `HRS_OFF` (R74 item 2). -/
theorem FrameLaidOut.setSelfCalibrationHours (h : Half) (s : State) :
    FrameLaidOut (.setSelfCalibrationHours h) s (s.prepared (.setSelfCalibrationHours h)) := by
  have hle := Config.params.hrsOff_le
  have h24 := Config.params.cmdLen_le .setSelfCalibrationHours
  have hread (a : Nat) : (s.prepared (.setSelfCalibrationHours h)).memRead .txbuf a =
      if Config.params.hrsOff ≤ a ∧ a < Config.params.hrsOff + 2 then byteOf (h.setWidth 32) (a - Config.params.hrsOff)
      else if a < Config.params.cmdLen .setSelfCalibrationHours then
        templateBytes .setSelfCalibrationHours (h.setWidth 32) a
      else s.memRead .txbuf a := by
    have hpack := ((s.admitted (.setSelfCalibrationHours h)).build Config.params .setSelfCalibrationHours
      (h.setWidth 32)).put16le_memRead Config.params.hrsOff (h.setWidth 32) (by omega) .txbuf a
    rw [State.admitted_build_memRead] at hpack
    exact hpack.trans (if_congr (by simp) rfl rfl)
  refine ⟨fun a _ ha => ?_, fun a (ha : Config.params.cmdLen _ ≤ a) => ?_⟩
  · have ha' : a + 2 < Config.params.cmdLen .setSelfCalibrationHours := ha
    rw [hread, framePayload]
    by_cases hlow : a = Config.params.hrsOff
    · rw [if_pos (by omega), if_pos hlow, hlow, Nat.sub_self]
      exact BitVec.extractLsb'_setWidth_of_le (by decide)
    by_cases hhigh : a = Config.params.hrsOff + 1
    · rw [if_pos (by omega), if_neg hlow, if_pos hhigh, hhigh, Nat.add_sub_cancel_left]
      exact BitVec.extractLsb'_setWidth_of_le (by decide)
    rw [if_neg (by omega), if_pos (by omega), if_neg hlow, if_neg hhigh]
  · rw [hread, if_neg (by omega), if_neg (by omega)]

/-- Every command with an exchange lays out its own frame before it; `REQUEST` takes what `TXBUF` holds (R198). -/
theorem State.prepared_laidOut {i : Instr} {finish : ExchangeOutcome × State → State} (hf : finishOf i = some finish)
    (s : State) : FrameLaidOut i s (s.prepared i) := by
  cases i <;> cases hf
  case setAirPressureReference v => exact .setAirPressureReference v s
  case setSelfCalibrationHours h => exact .setSelfCalibrationHours h s
  case request cl rl =>
    have hread (a : Nat) := s.admitted_memRead (.request cl rl) .txbuf a
    exact ⟨fun a _ _ => hread a, fun a _ => hread a⟩
  all_goals exact .ofTemplate rfl (fun _ => rfl) (s.admitted_build_memRead _ _ _)

/-! ### What a command writes before its exchange -/

theorem State.prepared_lastread (s : State) (i : Instr) :
    (s.prepared i).lastread =
      if i = .getGasConcentration ∨ i = .getAirPressureReference then s.sample.clock else s.lastread := by
  have hadm : (s.prepared i).lastread = (s.admitted i).lastread := by
    unfold State.prepared
    split
    next op x _ =>
      obtain ⟨m, hbuild⟩ := (s.admitted i).build_eq Config.params op x
      obtain ⟨m', hpack⟩ := ((s.admitted i).build Config.params op x).packOperand_eq i
      rw [hpack, hbuild]
    next => rfl
  rw [hadm]
  cases i <;> rfl

/-- What no command writes before its exchange. -/
structure SameBeforeExchange (s u : State) : Prop where
  config : SameConfig s u
  decoded : SameDecoded s u
  result : u.result = s.result
  status : u.status = s.status
  txlog : u.txlog = s.txlog
  host : SameHost s u

theorem State.prepared_same (s : State) (i : Instr) : SameBeforeExchange s (s.prepared i) := by
  obtain ⟨lr, c, d, dc, ph, m, -, heq⟩ := s.prepared_eq i
  rw [heq]
  exact ⟨⟨rfl, rfl, rfl, rfl⟩, ⟨rfl, rfl, rfl⟩, rfl, rfl, rfl, ⟨rfl, rfl⟩⟩

/-- What is received from the state an exchange starts from is received from the command's beginning: nothing arrives
in between (R47). -/
theorem Received.ofPrepared {i : Instr} {s t : State} {from0 : Nat} (h : Received (s.prepared i) t from0) :
    Received s t from0 := by
  obtain ⟨lr, c, d, dc, ph, m, -, heq⟩ := s.prepared_eq i
  rw [heq] at h
  exact { h with }

theorem FrameSent.ofPrepared {i : Instr} {s t : State} {finish : ExchangeOutcome × State → State}
    (hf : finishOf i = some finish)
    (h : FrameSent (s.prepared i) t (exchangeLengths i).1 ((s.prepared i).memRead .txbuf)) :
    FrameSent s t (exchangeLengths i).1 fun a => framePayload s a i := by
  obtain ⟨hpayload, hbehind⟩ := s.prepared_laidOut hf
  have hsame := s.prepared_same i
  have haddress : (s.prepared i).addressByte = s.addressByte := by
    rw [State.addressByte, hsame.config.specific, hsame.config.addr]
    rfl
  exact
    { log := hsame.txlog ▸ h.log
      address := h.address.trans haddress
      payload := fun a h1 h2 => (h.payload a h1 h2).trans (hpayload a h1 h2)
      crcOk := h.crcOk
      frame := fun a ha => (h.frame a ha).trans (hbehind a ha)
      accumulators := h.accumulators
      txlen := h.txlen }

/-! ### The exchange of a command whose checks pass -/

/-- How the exchange of command `i`, its checks passed in `s`, ends, before its finish (R140 stage 4). -/
def State.commandExchange (s : State) (i : Instr) : ExchangeOutcome × State :=
  (s.prepared i).exchange (exchangeLengths i).1 (exchangeLengths i).2

theorem Exchanges.exec_next {s : State} {i : Instr} (h : Exchanges s i) :
    ∃ finish, finishOf i = some finish ∧ exec i s = .next (finish (s.commandExchange i)) := by
  obtain ⟨finish, hf⟩ := h.hasFinish
  exact ⟨finish, hf, exec_of_exchanges h hf⟩

theorem Exchanges.sent {s : State} {i : Instr} (h : Exchanges s i) :
    FrameSent s (s.commandExchange i).2 (exchangeLengths i).1 fun a => framePayload s a i := by
  obtain ⟨h4, h24, -⟩ := h.lengths
  obtain ⟨finish, hf⟩ := h.hasFinish
  exact ((s.prepared i).exchange_sent _ _ h4 h24).ofPrepared hf

theorem Exchanges.received {s : State} {i : Instr} (h : Exchanges s i) : Received s (s.commandExchange i).2 0 := by
  obtain ⟨h4, h24, hn⟩ := h.lengths
  exact ((s.prepared i).exchange_received _ _ h4 h24 hn).ofPrepared

theorem State.exchange_rxlen (s : State) (cl : Nat) {n : Nat} (hn : n ≤ 24) : (s.exchange cl n).2.rxlen.toNat = n := by
  obtain ⟨_, _, _, _, _, _, _, _, _, _, _, _, _, _, _, heq⟩ := s.exchange_eq cl n
  rw [heq]
  exact Nat.mod_eq_of_lt (by omega)

theorem Exchanges.leavesLoop {s : State} {i : Instr} (h : Exchanges s i) : LeavesLoop i s (s.commandExchange i) := by
  have hle : (s.commandExchange i).2.rxn ≤ (s.commandExchange i).2.rxlen := h.received.rxn.2
  have hprep := s.prepared_same i
  obtain ⟨hconfig, hcached, -, -, -, -, hresult, hstatus⟩ :=
    (s.prepared i).exchange_same (exchangeLengths i).1 (exchangeLengths i).2
  exact
    { inLoop := h.inLoop
      outcome := State.receiveLoop_outcomeHolds _ _
      rxn_le := hle
      decoded := ⟨hconfig.addr.trans hprep.decoded.addr, hcached.gas.trans hprep.decoded.gas,
        hcached.airp.trans hprep.decoded.airp⟩
      result := hresult.trans hprep.result
      status := hstatus.trans hprep.status }

/-- What neither an exchange nor a finish writes, or writes as the two lengths say. -/
theorem finish_commandExchange_same {i : Instr} {finish : ExchangeOutcome × State → State}
    (hf : finishOf i = some finish) (s : State) :
    (finish (s.commandExchange i)).rxlen = (s.commandExchange i).2.rxlen ∧
      SameHost s (finish (s.commandExchange i)) := by
  have hhost := ((s.prepared i).exchange_same (exchangeLengths i).1 (exchangeLengths i).2).2.2.1
  have hprep := (s.prepared_same i).host
  rw [← State.commandExchange] at hhost
  obtain ⟨ph, re, st, b, g, a, ad, heq⟩ := finish_eq hf (s.commandExchange i)
  rw [heq]
  exact ⟨rfl, hhost.inputs.trans hprep.inputs, hhost.epoch.trans hprep.epoch⟩

/-- Settles O54: the frame is laid out, sent and answered in the command's exchange, and the finish follows the
exchange's outcome. -/
theorem everyExchangeEndsByItsCommandsRule : Obligations.EveryExchangeEndsByItsCommandsRule := by
  intro i s h
  obtain ⟨finish, hf, hexec⟩ := h.exec_next
  obtain ⟨hrxlen, hhost⟩ := finish_commandExchange_same hf s
  obtain ⟨hspecific, htimeout, hsuppress, hlastread⟩ :=
    finish_exchange_same hf (s.prepared i) (exchangeLengths i).1 (exchangeLengths i).2
  have hconfig := (s.prepared_same i).config
  refine ⟨_, hexec, h.leavesLoop.exchangeEnd hf, h.sent.finish hf, ?_, h.received.finish hf, hhost,
    hspecific.trans hconfig.specific, htimeout.trans hconfig.timeout, hsuppress.trans hconfig.suppress,
    hlastread.trans (s.prepared_lastread i)⟩
  rw [hrxlen]
  exact (s.prepared i).exchange_rxlen _ h.lengths.2.2

end Sys2Proof.Machine
end

section
/-! PROOFS. What holds of every exchange (spec/41_request.md R113 to R128): the frame that is transmitted, the bytes
that are received, and how a `REQUEST` ends. -/

namespace Sys2Proof.Machine

/-! ### What is transmitted -/

/-- A command that transmits performs an exchange and has sent its frame (R46, R116). -/
theorem exec_sent {i : Instr} {s t : State} (hexec : exec i s = .next t) (hlog : t.txlog ≠ s.txlog) :
    (finishOf i).isSome = true ∧ 4 ≤ (exchangeLengths i).1 ∧ (exchangeLengths i).1 ≤ 24 ∧
      FrameSent s t (exchangeLengths i).1 fun a => framePayload s a i := by
  by_cases hx : Exchanges s i
  · obtain ⟨h4, h24, -⟩ := hx.lengths
    obtain ⟨finish, hf, hnext⟩ := hx.exec_next
    rw [hnext] at hexec
    cases hexec
    exact ⟨by rw [hf]; rfl, h4, h24, hx.sent.finish hf⟩
  · exact absurd (endedAlone_of_not_exchanges hx hexec).writes.txlog hlog

theorem State.bytes_head? (s : State) (sp : Space) {n : Nat} (hn : 0 < n) :
    (s.bytes sp n)[0]? = some (s.memRead sp 0) := by
  rw [State.bytes_getElem?, if_pos hn]

/-- Settles O29: the frame stands at the end of the log, and its first byte is the one at offset 0. -/
theorem firstTransmittedByteFollowsTheAddressingMode : Obligations.FirstTransmittedByteFollowsTheAddressingMode := by
  intro i s t hexec hlog
  obtain ⟨-, h4, -, hsent⟩ := exec_sent hexec hlog
  refine ⟨?_, hsent.address⟩
  rw [hsent.log, List.getElem?_append_right (le_refl _), Nat.sub_self, t.bytes_head? _ (by omega), hsent.address]
  rfl

/-- The last two bytes of a frame, when they are its CRC, bring the CRC of the whole to 0 (R98 (c)). -/
theorem FrameCrcOk.crc16_eq_zero {frame : List Byte} (hlen : 2 ≤ frame.length) (h : FrameCrcOk frame) :
    crc16 frame = 0 := by
  have hlast : frame.drop (frame.length - 2) =
      [frame.getD (frame.length - 2) 0, frame.getD (frame.length - 1) 0] := by
    rw [List.getD_eq_getElem _ _ (by omega), List.getD_eq_getElem _ _ (by omega), List.drop_eq_getElem_cons (by omega),
      List.drop_eq_getElem_cons (by omega), List.drop_of_length_le (by omega)]
    simp only [show frame.length - 2 + 1 = frame.length - 1 by omega]
  have hzero := sequenceWithItsCrcHasCrcZero (frame.take (frame.length - 2))
  unfold FrameCrcOk at h
  rw [h, u16le, extract_low_append, extract_high_append, ← hlast, List.take_append_drop] at hzero
  exact hzero

/-- Settles O30: what is transmitted is the frame in `TXBUF`. -/
theorem everyTransmissionIsOneFrameWithARightCrc : Obligations.EveryTransmissionIsOneFrameWithARightCrc := by
  intro i s t hexec
  by_cases hlog : t.txlog = s.txlog
  · exact .inl hlog
  · obtain ⟨hfinish, h4, h24, hsent⟩ := exec_sent hexec hlog
    have hlen := t.bytes_length .txbuf (exchangeLengths i).1
    refine .inr ⟨_, hsent.log, hfinish, by omega, by omega, ?_, hsent.crcOk, hsent.crcOk.crc16_eq_zero (by omega)⟩
    rw [List.head?_eq_getElem?, t.bytes_head? _ (by omega), hsent.address]

/-! ### An awaited length of 0 -/

/-- Where no byte is awaited the exchange is over when the frame is sent (R127). -/
theorem State.exchange_zero (s : State) (cl : Nat) : s.exchange cl 0 = (.success, s.sendFrame cl 0) := by
  obtain ⟨i, heq⟩ := s.sendFrame_eq cl 0
  refine State.receiveLoop_of_complete ?_ _
  rw [heq]
  exact BitVec.lt_irrefl (0 : Byte)

/-- Settles O31: the exchange ends with the sending of the frame, and `REQUEST` changes nothing before or after it but
its own host-interface registers. -/
theorem zeroResponseLengthSucceedsWithoutPolling : Obligations.ZeroResponseLengthSucceedsWithoutPolling := by
  refine ⟨fun op => by cases op <;> decide, fun cl s h4 h24 => ?_⟩
  have hx : Exchanges s (.request cl 0) := ⟨h4, h24, Nat.zero_le _⟩
  have hover : (s.commandExchange (.request cl 0)) = (.success, (s.issue (.request cl 0)).sendFrame cl.toNat 0) :=
    State.exchange_zero _ _
  have hsent := hx.sent
  have hexec := exec_of_exchanges hx (finish := finishRequest) rfl
  rw [← State.commandExchange, hover] at hexec
  rw [hover] at hsent
  obtain ⟨-, hcount, -⟩ := (s.issue (.request cl 0)).sendFrame_environment cl.toNat 0 h24
  obtain ⟨i, heq⟩ := (s.issue (.request cl 0)).sendFrame_eq cl.toNat 0
  generalize (s.issue (.request cl 0)).sendFrame cl.toNat 0 = u at *
  refine ⟨u.complete 1, hexec, ⟨?_, rfl, rfl, rfl, rfl⟩, { hsent with }, ?_⟩
  · rw [heq]; rfl
  · rw [State.complete_moveCount, hcount, heq]
    exact ⟨fun _ => rfl, rfl, rfl, rfl, rfl, ⟨rfl, rfl, rfl, rfl⟩, ⟨rfl, rfl, rfl⟩, ⟨rfl, rfl⟩⟩

/-! ### How a command ends, in its first step or in a later one -/

/-- Command `i` takes a step from `s` to `t` in which its exchange runs: its first one, or one that goes on with it. -/
def RunsExchange (i : Instr) (s t : State) : Prop :=
  (Exchanges s i ∧ exec i s = .next t) ∨ (Resumes i s ∧ step s = .next t)

/-- Every such step ends by the command's own rule and leaves `TIMEOUT` alone (R119 to R126). -/
theorem RunsExchange.ends {i : Instr} {s t : State} (h : RunsExchange i s t) :
    ExchangeEnd i s t ∧ t.timeout = s.timeout := by
  rcases h with ⟨hx, hexec⟩ | ⟨hres, hstep⟩
  · obtain ⟨u, hnext, hend, -, -, -, -, -, htimeout, -⟩ := everyExchangeEndsByItsCommandsRule i s hx
    rw [hnext] at hexec
    cases hexec
    exact ⟨hend, htimeout⟩
  · obtain ⟨u, hnext, hend, -, -, -, -, -, -, -, -, -, htimeout, -⟩ :=
      everyResumedExchangeEndsByItsCommandsRule i s hres
    rw [hnext] at hstep
    cases hstep
    exact ⟨hend, htimeout⟩

/-- The lengths that `REQUEST` takes are those of its exchange (R111, R198). -/
theorem exchanges_request_of_wellFormed {cl rl : Byte} (h : WellFormed (.request cl rl) = true) (s : State) :
    Exchanges s (.request cl rl) := by
  simpa [WellFormed, Exchanges, and_assoc] using h

/-- Settles O32. -/
theorem requestEndsBySuccessTimeoutOrWaiting : Obligations.RequestEndsBySuccessTimeoutOrWaiting := by
  intro cl rl s t h
  have hruns : RunsExchange (.request cl rl) s t :=
    h.imp_left fun ⟨hwf, hexec⟩ => ⟨exchanges_request_of_wellFormed hwf s, hexec⟩
  rcases hruns.ends.1 with hsuccess | htimeout | hwaiting
  · exact .inl ⟨hsuccess.ended, hsuccess.rxn⟩
  · exact .inr (.inl ⟨htimeout.ended, htimeout.rxn, htimeout.late⟩)
  · exact .inr (.inr ⟨hwaiting.waiting, hwaiting.busy, hwaiting.cmd⟩)

/-- No elapsed time is above the largest `TIMEOUT` (R120, R128). -/
theorem not_largestTimeout_lt (elapsed : Time) : ¬ (0xFFFFFFFF : Time) < elapsed :=
  fun hlt => by bv_omega

/-- At the largest `TIMEOUT` a step of an exchange ends in one of two ways. -/
theorem RunsExchange.ends_of_largestTimeout {i : Instr} {s t : State} (hlargest : s.timeout = 0xFFFFFFFF)
    (h : RunsExchange i s t) : EndedBySuccess i s t ∨ StillWaiting i s t := by
  obtain ⟨hend, htimeout⟩ := h.ends
  rcases hend with hsuccess | hlate | hwaiting
  · exact .inl hsuccess
  · have hlt := hlate.late
    rw [htimeout, hlargest] at hlt
    exact absurd hlt (not_largestTimeout_lt _)
  · exact .inr hwaiting

/-- Settles O33. -/
theorem largestTimeoutNeverExpires : Obligations.LargestTimeoutNeverExpires := by
  intro s hlargest
  refine ⟨?_, fun cl rl t hwf hexec => ?_, fun i t => RunsExchange.ends_of_largestTimeout hlargest⟩
  · rw [State.deadlinePassed, hlargest]
    exact decide_eq_false (not_largestTimeout_lt _)
  · have hruns : RunsExchange (.request cl rl) s t := .inl ⟨exchanges_request_of_wellFormed hwf s, hexec⟩
    rcases hruns.ends_of_largestTimeout hlargest with hsuccess | hwaiting
    · exact .inl hsuccess.ended
    · exact .inr ⟨hwaiting.busy, hwaiting.waiting.phase, hwaiting.waiting.unfinished⟩

/-! ### What is received -/

/-- The environment has not moved, and nothing of what it brought is taken (R47, R121). -/
structure SameArrivals (s t : State) : Prop where
  rxq : t.rxq = s.rxq
  moves : t.moves = s.moves
  moveCount : t.moveCount = s.moveCount

theorem SameArrivals.ofCheck {i : Instr} {s t u : State} {c : Bool} {e : ErrorClass} {r : Word32} (hc : ¬ c = true)
    (ht : t = if c = true then u else (s.issue i).raise e r) : SameArrivals s t := by
  rw [ht, if_neg hc]
  exact ⟨rfl, rfl, rfl⟩

/-- A command that performs no exchange has no yield point and polls nothing (R8, R140). -/
theorem sameArrivals_of_not_exchanges {i : Instr} {s t : State} (hx : ¬ Exchanges s i) (h : exec i s = .next t) :
    SameArrivals s t := by
  cases i with
  | getAddress | getSinglePointCorrectionReady | openSelfCalibration | closeSelfCalibration
  | getSelfCalibrationStatus | getSelfCalibrationHours => exact absurd trivial hx
  | isConnected => cases h
  | setAddress a => cases h; exact .ofCheck (mt addressOk_iff.1 hx) rfl
  | setAirPressureReference v => cases h; exact .ofCheck (mt airPressureOk_iff.1 hx) rfl
  | setSinglePointCorrection v => cases h; exact .ofCheck (mt correctionOk_iff.1 hx) rfl
  | setSelfCalibrationHours x => cases h; exact .ofCheck (mt hoursOk_iff.1 hx) rfl
  | request cl rl => cases h; exact .ofCheck (mt requestLengthsOk_iff.1 hx) rfl
  | getAirPressureReference =>
    cases h
    have hcached : runGetAirPressureReference Config.params s = _ := if_pos (State.inRateWindow_iff.2 hx)
    rw [hcached]
    exact ⟨rfl, rfl, rfl⟩
  | getGasConcentration =>
    cases h
    have hcached : runGetGasConcentration Config.params s = _ := if_pos (State.inRateWindow_iff.2 hx)
    rw [hcached]
    exact ⟨rfl, rfl, rfl⟩
  | beginAddr a | rdbuf k =>
    cases h
    dsimp only
    split <;> exact ⟨rfl, rfl, rfl⟩
  | crc16 n =>
    cases h
    obtain ⟨k, hk⟩ := (s.issue (.crc16 n)).crcUnit_eq n.toNat
    dsimp only
    rw [hk]
    split <;> exact ⟨rfl, rfl, rfl⟩
  | wrbuf k b =>
    cases h
    obtain ⟨m, hm⟩ := (s.issue (.wrbuf k b)).txWrite_eq k.toNat b
    dsimp only
    rw [hm]
    split <;> exact ⟨rfl, rfl, rfl⟩
  | setGenericAddress | setSpecificAddress | useSpecificAddress | setTimeout | getTimeout | suppressError
  | getSuppressError | lastRead | getType | lastError => cases h; exact ⟨rfl, rfl, rfl⟩

/-- An exchange yields once for each byte it transmits (R116). -/
theorem State.exchange_moveCount_ge (s : State) {cl n : Nat} (h24 : cl ≤ 24) (hn : n ≤ 24) :
    s.moveCount + cl ≤ (s.exchange cl n).2.moveCount := by
  obtain ⟨-, hcount, -⟩ := s.sendFrame_environment cl n h24
  have hstart : (s.sendFrame cl n).rxlen.toNat ≤ 24 ∧ (s.sendFrame cl n).rxn = 0 := by
    obtain ⟨i, heq⟩ := s.sendFrame_eq cl n
    rw [heq]
    exact ⟨(Nat.mod_le _ _).trans hn, rfl⟩
  have hloop := State.receiveLoop_received ((s.sendFrame cl n).moves.length + 1) (s.sendFrame cl n) hstart.1
    (by rw [hstart.2]; exact Nat.zero_le _)
  exact hcount ▸ hloop.moveCount

theorem Exchanges.moveCount_lt {s : State} {i : Instr} (h : Exchanges s i) :
    s.moveCount < (s.commandExchange i).2.moveCount := by
  obtain ⟨h4, h24, hn⟩ := h.lengths
  have hge := (s.prepared i).exchange_moveCount_ge h24 hn
  obtain ⟨lr, c, d, dc, ph, m, -, heq⟩ := s.prepared_eq i
  have hcount : (s.prepared i).moveCount = s.moveCount := by rw [heq]
  rw [State.commandExchange]
  omega

/-- Settles O35: a command with an exchange receives in its transmit phase and its loop, any other command not at
all. -/
theorem receivedBytesAreKeptInOrder : Obligations.ReceivedBytesAreKeptInOrder := by
  intro i s t hexec
  by_cases hx : Exchanges s i
  · obtain ⟨finish, hf, hnext⟩ := hx.exec_next
    rw [hnext] at hexec
    cases hexec
    have hcount : (finish (s.commandExchange i)).moveCount = (s.commandExchange i).2.moveCount := by
      obtain ⟨ph, re, st, b, g, a, ad, heq⟩ := finish_eq hf (s.commandExchange i)
      rw [heq]
    exact .inr ⟨by rw [hf]; rfl, hcount ▸ hx.moveCount_lt, hx.received.finish hf⟩
  · have hwrites := (endedAlone_of_not_exchanges hx hexec).writes
    have hsame := sameArrivals_of_not_exchanges hx hexec
    exact .inl ⟨hwrites.txlog, hsame.rxq, hsame.moves, hsame.moveCount, .ofRespbuf hwrites.respbuf hwrites.epoch⟩

end Sys2Proof.Machine
end

section
/-! PROOFS. The bytes that are received do not steer an exchange (spec/41_request.md R121, R125): two exchanges to which
as many bytes come at the same times take the same course, and `GETADDRESS` looks at byte 3 alone (R150). -/

namespace Sys2Proof.Machine

/-! ### States that differ in received bytes only -/

/-- `s'` is `s` but for the bytes that wait in `RXQ`, equally many, and those of `RESPBUF`. -/
structure AlikeButBytes (s s' : State) : Prop where
  length : s'.rxq.length = s.rxq.length
  rest : ∃ q m, s' = { s with rxq := q, respbuf := m }

namespace AlikeButBytes

variable {s s' : State}

theorem issue (h : AlikeButBytes s s') (i : Instr) : AlikeButBytes (s.issue i) (s'.issue i) := by
  obtain ⟨hlen, q, m, rfl⟩ := h
  exact ⟨hlen, q, m, rfl⟩

theorem setPhase (h : AlikeButBytes s s') (ph : Phase) : AlikeButBytes (s.setPhase ph) (s'.setPhase ph) := by
  obtain ⟨hlen, q, m, rfl⟩ := h
  exact ⟨hlen, q, m, rfl⟩

theorem txWrite (h : AlikeButBytes s s') (a : Nat) (b : Byte) : AlikeButBytes (s.txWrite a b) (s'.txWrite a b) := by
  obtain ⟨hlen, q, m, rfl⟩ := h
  unfold State.txWrite
  split_ifs
  · exact ⟨hlen, q, m, rfl⟩
  · exact ⟨hlen, q, m, rfl⟩

theorem build (h : AlikeButBytes s s') (p : Params) (op : SensorOp) (x : Word32) :
    AlikeButBytes (s.build p op x) (s'.build p op x) := by
  have hput (n : Nat) {u u' : State} (hu : AlikeButBytes u u') :
      AlikeButBytes (State.putTemplate p op x n u) (State.putTemplate p op x n u') := by
    induction n with
    | zero => exact hu
    | succ n ih => exact ih.txWrite n _
  exact hput _ (h.setPhase .build)

theorem crcUnit (h : AlikeButBytes s s') (n : Nat) : AlikeButBytes (s.crcUnit n) (s'.crcUnit n) := by
  have hfold (l : List Byte) {u u' : State} (hu : AlikeButBytes u u') :
      AlikeButBytes (l.foldl State.crcUnitStep u) (l.foldl State.crcUnitStep u') := by
    induction l generalizing u u' with
    | nil => exact hu
    | cons b l ih =>
      obtain ⟨hlen, q, m, rfl⟩ := hu
      exact ih ⟨hlen, q, m, rfl⟩
  obtain ⟨hlen, q, m, rfl⟩ := h
  exact hfold _ ⟨hlen, q, m, rfl⟩

/-- The frame is completed from `TXBUF` and the configuration (R111 to R115). -/
theorem completeFrame (h : AlikeButBytes s s') (cl n : Nat) :
    AlikeButBytes (s.completeFrame cl n) (s'.completeFrame cl n) := by
  have henter : AlikeButBytes (s.enter cl n) (s'.enter cl n) := by
    obtain ⟨hlen, q, m, rfl⟩ := h
    exact ⟨hlen, q, m, rfl⟩
  have hput {u u' : State} (hu : AlikeButBytes u u') : AlikeButBytes u.putAddress u'.putAddress := by
    have hwrite := hu.txWrite 0 u.addressByte
    obtain ⟨-, q, m, rfl⟩ := hu
    exact hwrite
  have hcrc {u u' : State} (hu : AlikeButBytes u u') : AlikeButBytes u.frameCrc u'.frameCrc := by
    have hunit := (hu.setPhase .crc).crcUnit (u.txlen.toNat - 2)
    obtain ⟨-, q, m, rfl⟩ := hu
    exact hunit
  have happend {u u' : State} (hu : AlikeButBytes u u') : AlikeButBytes u.appendCrc u'.appendCrc := by
    have hwrite := ((hu.setPhase .append).txWrite (u.txlen.toNat - 2) (u.crcResult.extractLsb' 0 8)).txWrite
      (u.txlen.toNat - 1) (u.crcResult.extractLsb' 8 8)
    obtain ⟨-, q, m, rfl⟩ := hu
    exact hwrite
  exact happend (hcrc (hput henter))

/-- The environment's move depends on the moves made and the bytes transmitted, and brings as many bytes to both
(log 3). -/
theorem yield (h : AlikeButBytes s s') : AlikeButBytes s.yield s'.yield := by
  obtain ⟨hlen, q, m, rfl⟩ := h
  refine ⟨?_, q ++ s.nextMove.bytes, m, rfl⟩
  show (q ++ s.nextMove.bytes).length = (s.rxq ++ s.nextMove.bytes).length
  rw [List.length_append, List.length_append]
  exact congrArg (· + s.nextMove.bytes.length) hlen

theorem transmitBytes (n : Nat) (h : AlikeButBytes s s') :
    AlikeButBytes (State.transmitBytes n s) (State.transmitBytes n s') := by
  induction n generalizing s s' with
  | zero => exact h
  | succ n ih =>
    obtain ⟨hlen, q, m, rfl⟩ := h
    exact ih (yield ⟨hlen, q, m, rfl⟩)

theorem sendFrame (h : AlikeButBytes s s') (cl n : Nat) : AlikeButBytes (s.sendFrame cl n) (s'.sendFrame cl n) := by
  have htransmit {u u' : State} (hu : AlikeButBytes u u') : AlikeButBytes u.transmit u'.transmit := by
    obtain ⟨hlen, q, m, rfl⟩ := hu
    exact transmitBytes _ ⟨hlen, q, m, rfl⟩
  have hstart {u u' : State} (hu : AlikeButBytes u u') : AlikeButBytes u.startReceive u'.startReceive := by
    obtain ⟨hlen, q, m, rfl⟩ := hu
    exact ⟨hlen, q, m, rfl⟩
  exact hstart (htransmit (h.completeFrame cl n))

theorem sample (h : AlikeButBytes s s') : AlikeButBytes s.sample s'.sample := by
  obtain ⟨hlen, q, m, rfl⟩ := h
  exact ⟨hlen, q, m, rfl⟩

/-- A poll takes a byte from both or from neither (R121). -/
theorem poll (h : AlikeButBytes s s') : AlikeButBytes s.poll s'.poll := by
  obtain ⟨hlen, q, m, rfl⟩ := h
  have hlen' : q.length = s.rxq.length := hlen
  cases hq : s.rxq with
  | nil =>
    rw [hq, List.length_nil, List.length_eq_zero_iff] at hlen'
    rw [State.poll_nil hq, State.poll_nil (s := { s with rxq := q, respbuf := m }) hlen']
    exact ⟨hlen, q, m, rfl⟩
  | cons b rest =>
    obtain ⟨b', rest', rfl⟩ : ∃ b' rest', q = b' :: rest' := List.exists_cons_of_length_pos (by rw [hlen', hq]; simp)
    have hrest : rest'.length = rest.length := by simpa [hq] using hlen'
    rw [State.poll_cons hq, State.poll_cons (s := { s with rxq := b' :: rest', respbuf := m }) rfl]
    unfold State.respWrite
    split_ifs
    · exact ⟨hrest, rest', _, rfl⟩
    · exact ⟨hrest, rest', _, rfl⟩

theorem iterate (h : AlikeButBytes s s') : AlikeButBytes s.iterate s'.iterate := h.sample.poll.yield

end AlikeButBytes

/-- Two exchanges that are over or wait alike. -/
structure SameCourse (r r' : ExchangeOutcome × State) : Prop where
  outcome : r'.1 = r.1
  alike : AlikeButBytes r.2 r'.2

/-- The loop tests counters and the Clock, not bytes (R119 to R122). -/
theorem AlikeButBytes.receiveLoop (n : Nat) {s s' : State} (h : AlikeButBytes s s') :
    SameCourse (State.receiveLoop n s) (State.receiveLoop n s') := by
  have htest {u u' : State} (hu : AlikeButBytes u u') : u'.rxn = u.rxn ∧ u'.rxlen = u.rxlen := by
    obtain ⟨-, q, m, rfl⟩ := hu
    exact ⟨rfl, rfl⟩
  have hcheck {u u' : State} (hu : AlikeButBytes u u') : u'.deadlinePassed = u.deadlinePassed := by
    obtain ⟨-, q, m, rfl⟩ := hu
    rfl
  induction n generalizing s s' with
  | zero =>
    unfold State.receiveLoop
    rw [(htest h).1, (htest h).2]
    split
    · exact ⟨rfl, h⟩
    · exact ⟨rfl, h⟩
  | succ n ih =>
    rw [State.receiveLoop_succ, State.receiveLoop_succ, (htest h).1, (htest h).2, hcheck h.sample]
    split_ifs
    · exact ⟨rfl, h.sample⟩
    · exact ih h.iterate
    · exact ⟨rfl, h⟩

theorem AlikeButBytes.exchange {s s' : State} (h : AlikeButBytes s s') (cl n : Nat) :
    SameCourse (s.exchange cl n) (s'.exchange cl n) := by
  have hsent := h.sendFrame cl n
  have hmoves : (s'.sendFrame cl n).moves = (s.sendFrame cl n).moves := by
    obtain ⟨-, q, m, heq⟩ := hsent
    rw [heq]
  unfold State.exchange State.receive
  rw [hmoves]
  exact hsent.receiveLoop _

/-! ### `GETADDRESS` -/

theorem AlikeButBytes.getAddressExchange {s s' : State} (h : AlikeButBytes s s') :
    SameCourse (s.commandExchange .getAddress) (s'.commandExchange .getAddress) :=
  ((h.issue .getAddress).build Config.params .getAddress 0).exchange _ _

/-- The host interface, the stream, the Clock and `RXN` agree. -/
structure SameVisible (t t' : State) : Prop where
  result : t'.result = t.result
  status : t'.status = t.status
  busy : t'.busy = t.busy
  phase : t'.phase = t.phase
  txlog : t'.txlog = t.txlog
  clock : t'.clock = t.clock
  rxn : t'.rxn = t.rxn

/-- The finish of `GETADDRESS` reads byte 3, and only where the whole response is there (R150). -/
theorem SameCourse.finishGetAddress {r r' : ExchangeOutcome × State} (h : SameCourse r r')
    (hbyte : r.1 = .success → r'.2.memRead .respbuf 3 = r.2.memRead .respbuf 3) :
    SameVisible (finishGetAddress r) (finishGetAddress r') := by
  obtain ⟨o, e⟩ := r
  obtain ⟨o', e'⟩ := r'
  obtain ⟨houtcome, -, q, m, heq⟩ := h
  dsimp only at houtcome heq
  subst houtcome heq
  cases o' with
  | success => exact ⟨congrArg byteResult (hbyte rfl), rfl, rfl, rfl, rfl, rfl, rfl⟩
  | timeout | waiting => exact ⟨rfl, rfl, rfl, rfl, rfl, rfl, rfl⟩

/-- Byte 3 of a whole response is the fourth byte that waited or arrived (R121, R123). -/
theorem getAddress_byteThree {s : State} (hsuccess : (s.commandExchange .getAddress).1 = .success) :
    some ((s.commandExchange .getAddress).2.memRead .respbuf 3) =
      (s.rxq ++ s.arrived (s.commandExchange .getAddress).2)[3]? := by
  have hx : Exchanges s .getAddress := trivial
  have hlen : (s.commandExchange .getAddress).2.rxlen.toNat = 7 := (s.prepared .getAddress).exchange_rxlen _ (by decide)
  have hfull : ¬ (s.commandExchange .getAddress).2.rxn < (s.commandExchange .getAddress).2.rxlen := by
    have houtcome := hx.leavesLoop.outcome
    rwa [show s.commandExchange .getAddress = (.success, (s.commandExchange .getAddress).2) from
      Prod.ext hsuccess rfl] at houtcome
  have hfull' : ¬ (s.commandExchange .getAddress).2.rxn.toNat < (s.commandExchange .getAddress).2.rxlen.toNat := hfull
  exact hx.received.received 3 (Nat.zero_le _) (by omega)

theorem getElem?_append_congr {q q' : List Byte} (hlen : q.length = q'.length) {k : Nat} (hk : q[k]? = q'[k]?)
    (l : List Byte) : (q' ++ l)[k]? = (q ++ l)[k]? := by
  rw [List.getElem?_append, List.getElem?_append, hlen, hk]

/-- Settles O36: the two exchanges take the same course, so the same bytes arrive in both, and a whole response has
byte 3 from among those waiting at offset 3 or arriving. -/
theorem getAddressIgnoresAllButByteThree : Obligations.GetAddressIgnoresAllButByteThree := by
  intro s q q' hlen hthree
  have hexec (u : State) : exec .getAddress u = .next (finishGetAddress (u.commandExchange .getAddress)) :=
    exec_of_exchanges (i := .getAddress) trivial rfl
  have halike : AlikeButBytes { s with rxq := q } { s with rxq := q' } := ⟨hlen.symm, q', s.respbuf, rfl⟩
  have hcourse := halike.getAddressExchange
  have harrived : State.arrived { s with rxq := q' } (State.commandExchange { s with rxq := q' } .getAddress).2 =
      State.arrived { s with rxq := q } (State.commandExchange { s with rxq := q } .getAddress).2 := by
    obtain ⟨-, -, c, m, heq⟩ := hcourse
    rw [heq]
    rfl
  have hvisible := hcourse.finishGetAddress fun hsuccess => by
    have hbyte := getAddress_byteThree hsuccess
    have hbyte' := getAddress_byteThree (hcourse.outcome.trans hsuccess)
    rw [harrived] at hbyte'
    exact Option.some.inj (hbyte'.trans ((getElem?_append_congr hlen hthree _).trans hbyte.symm))
  exact ⟨_, _, hexec _, hexec _, hvisible.result, hvisible.status, hvisible.busy, hvisible.phase, hvisible.txlog,
    hvisible.clock, hvisible.rxn⟩

end Sys2Proof.Machine
end

section
/-! PROOFS. How a command with an exchange ends by the environment's script (spec/41_request.md R119 to R129,
spec/42_operations.md R140, R143, R145): answered in time, answered too late, refused by a check before the exchange, or
answered from the cache inside the rate window. -/

namespace Sys2Proof.Machine

/-! ### The state in which the script begins -/

/-- The state in which the checks of command `i` are made: a reading command has taken its sample (R145). -/
def State.checked (s : State) : Instr → State
  | .getAirPressureReference | .getGasConcentration => s.sample
  | _ => s

theorem State.checked_of_not_reads {i : Instr} (h : ¬ Reads i) (s : State) : s.checked i = s := by
  cases i with
  | getAirPressureReference => exact absurd (.inr rfl) h
  | getGasConcentration => exact absurd (.inl rfl) h
  | _ => rfl

theorem State.checked_eq (s : State) (i : Instr) :
    ∃ c d dc, s.checked i = { s with clock := c, drifts := d, driftCount := dc } := by
  cases i <;> exact ⟨_, _, _, rfl⟩

/-- From its checks to its exchange a command takes no sample and no move (R140 stages 2 and 3). -/
theorem State.prepared_eq_checked (s : State) (i : Instr) :
    ∃ ph m lr, s.prepared i =
      { s.checked i with cmd := encode i, busy := true, phase := ph, txbuf := m, lastread := lr } := by
  obtain ⟨lr, hadm⟩ : ∃ lr, s.admitted i =
      { s.checked i with cmd := encode i, busy := true, phase := .validate, lastread := lr } := by
    cases i <;> exact ⟨_, rfl⟩
  unfold State.prepared
  split
  next op x _ =>
    obtain ⟨m, hbuild⟩ := (s.admitted i).build_eq Config.params op x
    obtain ⟨m', hpack⟩ := ((s.admitted i).build Config.params op x).packOperand_eq i
    exact ⟨.build, m', lr, by rw [hpack, hbuild, hadm]⟩
  next => exact ⟨.validate, (s.checked i).txbuf, lr, hadm⟩

theorem Iterates.toPrepared {s : State} {i : Instr} {cl j k : Nat} (h : Iterates (s.checked i) cl j k) :
    Iterates (s.prepared i) cl j k := by
  obtain ⟨ph, m, lr, heq⟩ := s.prepared_eq_checked i
  rw [heq]
  exact ⟨h.moves, h.drifts, h.inTime, h.taken⟩

theorem Prompt.toPrepared {s : State} {i : Instr} {cl n : Nat} (h : Prompt (s.checked i) cl n) :
    Prompt (s.prepared i) cl n := by
  obtain ⟨j, hj⟩ := h
  exact ⟨j, hj.toPrepared⟩

theorem TooLate.toPrepared {s : State} {i : Instr} {cl n k : Nat} (h : TooLate (s.checked i) cl n k) :
    TooLate (s.prepared i) cl n k := by
  obtain ⟨hmissing, j, hj, hdrifts, hlate⟩ := h
  refine ⟨hmissing, j, hj.toPrepared, ?_⟩
  obtain ⟨ph, m, lr, heq⟩ := s.prepared_eq_checked i
  rw [heq]
  exact ⟨hdrifts, hlate⟩

/-! ### What the exchange leaves -/

theorem Exchanged.ofPrepared {i : Instr} {s t : State} {n k : Nat} {finish : ExchangeOutcome × State → State}
    (hf : finishOf i = some finish)
    (h : Exchanged (s.prepared i) t (exchangeLengths i).1 n k ((s.prepared i).memRead .txbuf)) :
    Exchanged (s.checked i) t (exchangeLengths i).1 n k fun a => framePayload s a i := by
  have hsent : FrameSent (s.checked i) t (exchangeLengths i).1 fun a => framePayload s a i := by
    have hsent := h.sent.ofPrepared hf
    obtain ⟨c, d, dc, heq⟩ := s.checked_eq i
    rw [heq]
    exact { hsent with }
  obtain ⟨-, hcollected, hhost⟩ := h
  obtain ⟨ph, m, lr, heq⟩ := s.prepared_eq_checked i
  rw [heq] at hcollected hhost
  exact ⟨hsent, { hcollected with }, { hhost with }⟩

theorem Exchanged.finish {i : Instr} {s : State} {r : ExchangeOutcome × State} {cl n k : Nat} {payload : Nat → Byte}
    {finish : ExchangeOutcome × State → State} (hf : finishOf i = some finish) (h : Exchanged s r.2 cl n k payload) :
    Exchanged s (finish r) cl n k payload := by
  have hsent := h.sent.finish hf
  obtain ⟨-, hcollected, hhost⟩ := h
  obtain ⟨ph, re, st, b, g, a, ad, heq⟩ := finish_eq hf r
  rw [heq] at hsent ⊢
  exact ⟨hsent, { hcollected with }, { hhost with }⟩

/-- A byte of the response is zero exactly where the environment sent a zero (R121). -/
theorem Collected.zero_iff {s t : State} {cl n k a : Nat} (h : Collected s t cl n k) (ha : a < k) :
    (s.arrivals s.moves.length)[a]? = some 0 ↔ t.memRead .respbuf a = 0 := by
  rw [← h.received a ha, Option.some_inj]

/-! ### A command whose checks pass -/

/-- A command that the environment answers in time ends by its decode rule (R123, R140). -/
theorem Exchanges.answered {s : State} {i : Instr} (hx : Exchanges s i)
    (hp : Prompt (s.checked i) (exchangeLengths i).1 (exchangeLengths i).2) :
    ∃ t, exec i s = .next t ∧ EndedBySuccess i s t ∧
      Exchanged (s.checked i) t (exchangeLengths i).1 (exchangeLengths i).2 (exchangeLengths i).2
        fun a => framePayload s a i := by
  obtain ⟨h4, h24, hn⟩ := hx.lengths
  obtain ⟨finish, hf, hexec⟩ := hx.exec_next
  obtain ⟨hsuccess, hexchanged⟩ := (s.prepared i).exchange_prompt _ _ h4 h24 hn hp.toPrepared
  have hleaves := hx.leavesLoop
  rw [show s.commandExchange i = (.success, (s.commandExchange i).2) from Prod.ext hsuccess rfl] at hexec hleaves
  exact ⟨_, hexec, hleaves.endedBySuccess hf, (hexchanged.ofPrepared hf).finish hf⟩

/-- A command that the environment does not answer in time ends with its sentinel (R126, R129, R143). -/
theorem Exchanges.timedOut {s : State} {i : Instr} {k : Nat} (hx : Exchanges s i)
    (hp : TooLate (s.checked i) (exchangeLengths i).1 (exchangeLengths i).2 k) :
    ∃ t, exec i s = .next t ∧ EndedByTimeout i s t ∧
      Exchanged (s.checked i) t (exchangeLengths i).1 (exchangeLengths i).2 k fun a => framePayload s a i := by
  obtain ⟨h4, h24, hn⟩ := hx.lengths
  obtain ⟨finish, hf, hexec⟩ := hx.exec_next
  obtain ⟨htimeout, hexchanged⟩ := (s.prepared i).exchange_tooLate _ _ _ h4 h24 hn hp.toPrepared
  have hleaves := hx.leavesLoop
  rw [show s.commandExchange i = (.timeout, (s.commandExchange i).2) from Prod.ext htimeout rfl] at hexec hleaves
  exact ⟨_, hexec, hleaves.endedByTimeout hf, (hexchanged.ofPrepared hf).finish hf⟩

/-- However its exchange ends, a command leaves the configuration registers but `ADDR` alone, and writes `LASTREAD` only
where it takes a reading (R131, R146). -/
theorem Exchanges.kept {s t : State} {i : Instr} (hx : Exchanges s i) (hexec : exec i s = .next t) :
    t.specific = s.specific ∧ t.timeout = s.timeout ∧ t.suppress = s.suppress ∧
      t.lastread = if i = .getGasConcentration ∨ i = .getAirPressureReference then s.sample.clock else s.lastread := by
  obtain ⟨u, hnext, -, -, -, -, -, hkept⟩ := everyExchangeEndsByItsCommandsRule i s hx
  rw [hnext] at hexec
  cases hexec
  exact hkept

/-- A command that takes no reading and has decoded into no register leaves all of them alone. -/
theorem Exchanges.sameRegisters {s t : State} {i : Instr} (hx : Exchanges s i) (hexec : exec i s = .next t)
    (hreads : ¬ Reads i) (hsame : SameDecoded s t) : SameConfig s t ∧ SameCached s t := by
  obtain ⟨hspecific, htimeout, hsuppress, hlastread⟩ := hx.kept hexec
  exact ⟨⟨hsame.addr, hspecific, htimeout, hsuppress⟩, hlastread.trans (if_neg hreads), hsame.gas, hsame.airp⟩

/-- A reading command that has left `ADDR` alone: `LASTREAD` is its sample (R146). -/
theorem Exchanges.readRegisters {s t : State} {i : Instr} (hx : Exchanges s i) (hexec : exec i s = .next t)
    (hreads : Reads i) (haddr : t.addr = s.addr) : t.lastread = s.sample.clock ∧ SameConfig s t := by
  obtain ⟨hspecific, htimeout, hsuppress, hlastread⟩ := hx.kept hexec
  exact ⟨hlastread.trans (if_pos hreads), haddr, hspecific, htimeout, hsuppress⟩

/-- A command that takes no reading, timed out. -/
theorem Exchanges.timedOut_of_not_reads {s : State} {i : Instr} {k : Nat} (hx : Exchanges s i) (hreads : ¬ Reads i)
    (hp : TooLate s (exchangeLengths i).1 (exchangeLengths i).2 k) :
    ∃ t, exec i s = .next t ∧ Ended i (timeoutResult i) 2 t ∧ SameConfig s t ∧ SameCached s t ∧
      Exchanged s t (exchangeLengths i).1 (exchangeLengths i).2 k fun a => framePayload s a i := by
  have hchecked := State.checked_of_not_reads hreads s
  obtain ⟨t, hexec, htimeout, hexchanged⟩ := hx.timedOut (hchecked.symm ▸ hp)
  obtain ⟨hconfig, hcached⟩ := hx.sameRegisters hexec hreads htimeout.decoded
  rw [hchecked] at hexchanged
  exact ⟨t, hexec, htimeout.ended, hconfig, hcached, hexchanged⟩

/-- The commands that decode into no register: their response only decides on `RESULT` and `STATUS` (R31, R143). -/
structure AnswersOnly (i : Instr) : Prop where
  address : ∀ a, i ≠ .setAddress a
  gas : i ≠ .getGasConcentration
  airPressure : i ≠ .getAirPressureReference

theorem AnswersOnly.not_reads {i : Instr} (h : AnswersOnly i) : ¬ Reads i := not_or.2 ⟨h.gas, h.airPressure⟩

theorem EndedBySuccess.sameAddr {i : Instr} {s t : State} (h : EndedBySuccess i s t) (hi : ∀ a, i ≠ .setAddress a) :
    t.addr = s.addr := by
  rcases h.addr with ⟨a, hset, -⟩ | ⟨-, hsame⟩
  · exact absurd hset (hi a)
  · exact hsame

theorem EndedBySuccess.sameDecoded {i : Instr} {s t : State} (h : EndedBySuccess i s t) (hi : AnswersOnly i) :
    SameDecoded s t where
  addr := h.sameAddr hi.address
  gas := (if_neg fun hgas => hi.gas hgas.1).mp h.gas
  airp := (if_neg hi.airPressure).mp h.airp

theorem Exchanges.answered_of_answersOnly {s : State} {i : Instr} (hx : Exchanges s i) (hi : AnswersOnly i)
    (hp : Prompt s (exchangeLengths i).1 (exchangeLengths i).2) :
    ∃ t, exec i s = .next t ∧
      Ended i (responseOutcome (t.memRead .respbuf) i).1 (responseOutcome (t.memRead .respbuf) i).2 t ∧
      SameConfig s t ∧ SameCached s t ∧
      Exchanged s t (exchangeLengths i).1 (exchangeLengths i).2 (exchangeLengths i).2 fun a => framePayload s a i := by
  have hchecked := State.checked_of_not_reads hi.not_reads s
  obtain ⟨t, hexec, hsuccess, hexchanged⟩ := hx.answered (hchecked.symm ▸ hp)
  obtain ⟨hconfig, hcached⟩ := hx.sameRegisters hexec hi.not_reads (hsuccess.sameDecoded hi)
  rw [hchecked] at hexchanged
  exact ⟨t, hexec, hsuccess.ended, hconfig, hcached, hexchanged⟩

/-- A decode rule with two answers. -/
theorem Ended.of_ite {i : Instr} {t : State} {c : Prop} [Decidable c] {x y : Word32 × Byte}
    (h : Ended i (if c then x else y).1 (if c then x else y).2 t) : if c then Ended i x.1 x.2 t else Ended i y.1 y.2 t := by
  split
  next hc => rwa [if_pos hc] at h
  next hc => rwa [if_neg hc] at h

/-! ### A command that performs no exchange -/

/-- A command whose operand check fails raises `ValidationError` and changes nothing else (R140 stage 1, R151, R154,
R160, R166). -/
theorem exec_of_check_fails {i : Instr} {s u : State} {c : Bool} (hc : ¬ c = true)
    (hexec : exec i s = .next (if c = true then u else (s.issue i).raise .validation 0)) :
    ∃ t, exec i s = .next t ∧ Ended i 0 1 t ∧ SameOutsideHostInterface s t := by
  rw [if_neg hc] at hexec
  exact ⟨_, hexec, ⟨rfl, rfl, rfl, rfl, rfl⟩, sameOutsideHostInterface_of_writes s (encode i) 0 1 .idle false⟩

/-- A reading command inside the rate window returns its cached value `r` and changes nothing else, but that its sample
is taken (R145). -/
theorem exec_of_rateWindow {i : Instr} {s u : State} {r : Word32} (hin : s.sample.clock - s.lastread < 4000)
    (hexec : exec i s =
      .next (if (s.issue i).sample.inRateWindow = true then (s.issue i).sample.complete r else u)) :
    ∃ t, exec i s = .next t ∧ Ended i r 0 t ∧ SameOutsideHostInterface s.sample t := by
  have hwindow : (s.issue i).sample.inRateWindow = true := decide_eq_true hin
  rw [if_pos hwindow] at hexec
  exact ⟨_, hexec, ⟨rfl, rfl, rfl, rfl, rfl⟩, sameOutsideHostInterface_of_writes s.sample (encode i) r 0 .idle false⟩

end Sys2Proof.Machine
end

section
/-! PROOFS. The sensor operations (spec/42_operations.md R150 to R167), by the environment's script. -/

namespace Sys2Proof.Machine

/-! ### The commands that decode into no register -/

/-- Settles O37. -/
theorem getAddressReturnsByteThree : Obligations.GetAddressReturnsByteThree := by
  intro s
  have hx : Exchanges s .getAddress := trivial
  have hi : AnswersOnly .getAddress := ⟨nofun, nofun, nofun⟩
  exact ⟨hx.answered_of_answersOnly hi, fun _ => hx.timedOut_of_not_reads hi.not_reads⟩

/-- Settles O45. -/
theorem getSelfCalibrationStatusReturnsByteThree : Obligations.GetSelfCalibrationStatusReturnsByteThree := by
  intro s
  have hx : Exchanges s .getSelfCalibrationStatus := trivial
  have hi : AnswersOnly .getSelfCalibrationStatus := ⟨nofun, nofun, nofun⟩
  exact ⟨hx.answered_of_answersOnly hi, fun _ => hx.timedOut_of_not_reads hi.not_reads⟩

/-- Settles O47. -/
theorem getSelfCalibrationHoursDecodesTwoBytes : Obligations.GetSelfCalibrationHoursDecodesTwoBytes := by
  intro s
  have hx : Exchanges s .getSelfCalibrationHours := trivial
  have hi : AnswersOnly .getSelfCalibrationHours := ⟨nofun, nofun, nofun⟩
  exact ⟨hx.answered_of_answersOnly hi, fun _ => hx.timedOut_of_not_reads hi.not_reads⟩

/-- Settles O44: the decode rule of either command looks at no byte. -/
theorem selfCalibrationSwitchesSucceedOnAnyResponse : Obligations.SelfCalibrationSwitchesSucceedOnAnyResponse := by
  intro s
  have hopen : Exchanges s .openSelfCalibration := trivial
  have hopen' : AnswersOnly .openSelfCalibration := ⟨nofun, nofun, nofun⟩
  have hclose : Exchanges s .closeSelfCalibration := trivial
  have hclose' : AnswersOnly .closeSelfCalibration := ⟨nofun, nofun, nofun⟩
  exact ⟨hopen.answered_of_answersOnly hopen', fun _ => hopen.timedOut_of_not_reads hopen'.not_reads,
    hclose.answered_of_answersOnly hclose', fun _ => hclose.timedOut_of_not_reads hclose'.not_reads⟩

/-- Settles O43: both answers of the decode rule have `STATUS` 0. -/
theorem correctionReadyMeansByteThreeIsZero : Obligations.CorrectionReadyMeansByteThreeIsZero := by
  intro s
  have hx : Exchanges s .getSinglePointCorrectionReady := trivial
  have hi : AnswersOnly .getSinglePointCorrectionReady := ⟨nofun, nofun, nofun⟩
  refine ⟨fun hp => ?_, fun _ => hx.timedOut_of_not_reads hi.not_reads⟩
  obtain ⟨t, hexec, hended, hrest⟩ := hx.answered_of_answersOnly hi hp
  refine ⟨t, hexec, ?_, hrest⟩
  have hsplit := Ended.of_ite hended
  split at hsplit
  next hzero => rwa [if_pos hzero]
  next hnonzero => rwa [if_neg hnonzero]

/-- Settles O42. -/
theorem setSinglePointCorrectionValidatesAndChecksByteSeven :
    Obligations.SetSinglePointCorrectionValidatesAndChecksByteSeven := by
  intro v s
  have hi : AnswersOnly (.setSinglePointCorrection v) := ⟨nofun, nofun, nofun⟩
  have hx (hmin : 400 ≤ v.toNat) (hmax : v.toNat ≤ 5000) : Exchanges s (.setSinglePointCorrection v) := ⟨hmin, hmax⟩
  refine ⟨fun hout => exec_of_check_fails (mt correctionOk_iff.1 (by omega)) rfl, fun hmin hmax hp => ?_,
    fun hmin hmax _ => (hx hmin hmax).timedOut_of_not_reads hi.not_reads⟩
  obtain ⟨t, hexec, hended, hconfig, hcached, hexchanged⟩ := (hx hmin hmax).answered_of_answersOnly hi hp
  have hseven := hexchanged.collected.zero_iff (show 7 < 10 by decide)
  refine ⟨t, hexec, hconfig, hcached, hexchanged, ?_⟩
  simp only [hseven]
  exact Ended.of_ite hended

/-- Settles O46. -/
theorem setSelfCalibrationHoursValidatesPacksAndChecksByteThree :
    Obligations.SetSelfCalibrationHoursValidatesPacksAndChecksByteThree := by
  intro h s
  have hi : AnswersOnly (.setSelfCalibrationHours h) := ⟨nofun, nofun, nofun⟩
  have hx (hmin : 24 ≤ h.toNat) (hmax : h.toNat ≤ 720) : Exchanges s (.setSelfCalibrationHours h) := ⟨hmin, hmax⟩
  refine ⟨fun hout => exec_of_check_fails (mt hoursOk_iff.1 (by omega)) rfl, fun hmin hmax hp => ?_,
    fun hmin hmax _ => (hx hmin hmax).timedOut_of_not_reads hi.not_reads⟩
  obtain ⟨t, hexec, hended, hconfig, hcached, hexchanged⟩ := (hx hmin hmax).answered_of_answersOnly hi hp
  have hthree := hexchanged.collected.zero_iff (show 3 < 6 by decide)
  refine ⟨t, hexec, hconfig, hcached, hexchanged, ?_⟩
  simp only [hthree]
  exact Ended.of_ite hended

/-- Settles O40. -/
theorem setAirPressureValidatesAndPacksThreeBytes : Obligations.SetAirPressureValidatesAndPacksThreeBytes := by
  intro v s
  have hi : AnswersOnly (.setAirPressureReference v) := ⟨nofun, nofun, nofun⟩
  have hx (hmin : 0x442F0000 ≤ v) (hmax : v ≤ 0x44898000) : Exchanges s (.setAirPressureReference v) := ⟨hmin, hmax⟩
  refine ⟨fun hout => exec_of_check_fails (mt airPressureOk_iff.1 ?_) rfl,
    fun hmin hmax => (hx hmin hmax).answered_of_answersOnly hi,
    fun hmin hmax _ => (hx hmin hmax).timedOut_of_not_reads hi.not_reads⟩
  bv_omega

/-! ### `SETADDRESS` -/

/-- Settles O38: the frame carries the address byte of `s`, and only the decode writes `ADDR`. -/
theorem setAddressValidatesAndFollowsOnSuccess : Obligations.SetAddressValidatesAndFollowsOnSuccess := by
  intro a s
  have hreads : ¬ Reads (.setAddress a) := not_or.2 ⟨nofun, nofun⟩
  have hx (hmax : a.toNat ≤ 247) : Exchanges s (.setAddress a) := hmax
  refine ⟨fun hout => exec_of_check_fails (mt addressOk_iff.1 (by omega)) rfl, fun hmax hp => ?_,
    fun hmax _ => (hx hmax).timedOut_of_not_reads hreads⟩
  obtain ⟨t, hexec, hsuccess, hexchanged⟩ := (hx hmax).answered hp
  obtain ⟨hspecific, htimeout, hsuppress, hlastread⟩ := (hx hmax).kept hexec
  have haddr : t.addr = a := by
    rcases hsuccess.addr with ⟨b, hset, haddr⟩ | ⟨hother, -⟩
    · cases hset
      exact haddr
    · exact absurd rfl (hother a)
  exact ⟨t, hexec, hsuccess.ended, haddr, hspecific, htimeout, hsuppress,
    ⟨hlastread.trans (if_neg hreads), hsuccess.gas, hsuccess.airp⟩, hexchanged⟩

/-! ### The reading commands -/

/-- Settles O39: the rate check's sample is taken first, and the exchange starts from the state after it. -/
theorem getAirPressureDecodesThreeBytesOrReturnsTheCache :
    Obligations.GetAirPressureDecodesThreeBytesOrReturnsTheCache := by
  intro s
  have hreads : Reads .getAirPressureReference := .inr rfl
  refine ⟨fun hin => exec_of_rateWindow hin rfl, fun hout hp => ?_, fun hout k hp => ?_⟩
  · have hx : Exchanges s .getAirPressureReference := Nat.not_lt.1 hout
    obtain ⟨t, hexec, hsuccess, hexchanged⟩ := hx.answered hp
    obtain ⟨hlastread, hconfig⟩ := hx.readRegisters hexec hreads (hsuccess.sameAddr nofun)
    have hairp : t.airp = t.result := hsuccess.airp
    exact ⟨t, hexec, { hsuccess.ended with result := hairp.symm }, hairp.trans hsuccess.ended.result, hlastread,
      hsuccess.gas, hconfig, hexchanged⟩
  · have hx : Exchanges s .getAirPressureReference := Nat.not_lt.1 hout
    obtain ⟨t, hexec, htimeout, hexchanged⟩ := hx.timedOut hp
    obtain ⟨hlastread, hconfig⟩ := hx.readRegisters hexec hreads htimeout.decoded.addr
    exact ⟨t, hexec, htimeout.ended, hlastread, htimeout.decoded.gas, htimeout.decoded.airp, hconfig, hexchanged⟩

/-- The two ends of a gas reading whose whole response is there: good markers, and `GAS` and `RESULT` are the decoded
value; or others, and `GAS` is as it was (R157). -/
theorem EndedBySuccess.gasConcentration {s t : State} (h : EndedBySuccess .getGasConcentration s t) :
    if t.memRead .respbuf 8 = 0 ∧ t.memRead .respbuf 9 = 0 ∧ t.memRead .respbuf 10 = 0 ∧ t.memRead .respbuf 11 = 0
    then Ended .getGasConcentration (t.gas.setWidth 32) 0 t ∧ t.gas = t.memRead .respbuf 5 ++ t.memRead .respbuf 4
    else Ended .getGasConcentration 0 3 t ∧ t.gas = s.gas := by
  have hgas := h.gas
  have hended := Ended.of_ite h.ended
  split at hended
  next hzero =>
    rw [if_pos ⟨rfl, hended.status⟩] at hgas
    rw [if_pos hzero, hgas]
    exact ⟨hended, rfl⟩
  next hnonzero =>
    rw [if_neg fun hgood => absurd (hgood.2.symm.trans hended.status) (by decide)] at hgas
    rw [if_neg hnonzero]
    exact ⟨hended, hgas⟩

/-- Settles O41. -/
theorem getGasChecksMarkersAndDecodesOrReturnsTheCache : Obligations.GetGasChecksMarkersAndDecodesOrReturnsTheCache := by
  intro s
  have hreads : Reads .getGasConcentration := .inl rfl
  refine ⟨fun hin => exec_of_rateWindow hin rfl, fun hout hp => ?_, fun hout k hp => ?_⟩
  · have hx : Exchanges s .getGasConcentration := Nat.not_lt.1 hout
    obtain ⟨t, hexec, hsuccess, hexchanged⟩ := hx.answered hp
    obtain ⟨hlastread, hconfig⟩ := hx.readRegisters hexec hreads (hsuccess.sameAddr nofun)
    have hmarker (a : Nat) (ha : a < 14) : (s.arrivals s.moves.length)[a]? = some 0 ↔ t.memRead .respbuf a = 0 :=
      hexchanged.collected.zero_iff ha
    refine ⟨t, hexec, hexchanged, hconfig, hlastread, hsuccess.airp, ?_⟩
    simp only [hmarker 8 (by decide), hmarker 9 (by decide), hmarker 10 (by decide), hmarker 11 (by decide)]
    exact hsuccess.gasConcentration
  · have hx : Exchanges s .getGasConcentration := Nat.not_lt.1 hout
    obtain ⟨t, hexec, htimeout, hexchanged⟩ := hx.timedOut hp
    obtain ⟨hlastread, hconfig⟩ := hx.readRegisters hexec hreads htimeout.decoded.addr
    exact ⟨t, hexec, htimeout.ended, hlastread, htimeout.decoded.gas, htimeout.decoded.airp, hconfig, hexchanged⟩

end Sys2Proof.Machine
end

section
/-! PROOFS. Binary32 patterns (spec/42_operations.md R155, R156; R9, G4): the real value of a pattern without sign grows
with the pattern, so comparing patterns compares values. -/

namespace Sys2Proof.Machine

/-! ### The value of a pattern without sign -/

/-- The magnitude of the pattern `n` below 2^31, in units of 2^-149: its exponent field is `n / 2^23`, its fraction
`n % 2^23` (R9). -/
def f32Magnitude (n : Nat) : Nat :=
  if n / 2 ^ 23 = 0 then n % 2 ^ 23 else (2 ^ 23 + n % 2 ^ 23) * 2 ^ (n / 2 ^ 23 - 1)

theorem f32Magnitude_of_subnormal {n : Nat} (h : n < 2 ^ 23) : f32Magnitude n = n := by
  rw [f32Magnitude, if_pos (Nat.div_eq_of_lt h), Nat.mod_eq_of_lt h]

theorem f32Magnitude_of_normal {e f : Nat} (hf : f < 2 ^ 23) :
    f32Magnitude (2 ^ 23 * (e + 1) + f) = (2 ^ 23 + f) * 2 ^ e := by
  have hdiv : (2 ^ 23 * (e + 1) + f) / 2 ^ 23 = e + 1 := by omega
  have hmod : (2 ^ 23 * (e + 1) + f) % 2 ^ 23 = f := by omega
  rw [f32Magnitude, hdiv, hmod, if_neg (Nat.succ_ne_zero e), Nat.add_sub_cancel]

/-- The next pattern has the next fraction, or fraction 0 at the next exponent, and is the larger value. -/
theorem f32Magnitude_strictMono : StrictMono f32Magnitude := by
  refine strictMono_nat_of_lt_succ fun n => ?_
  by_cases hsub : n < 2 ^ 23
  · by_cases hlast : n + 1 < 2 ^ 23
    · rw [f32Magnitude_of_subnormal hsub, f32Magnitude_of_subnormal hlast]
      exact Nat.lt_succ_self n
    · obtain rfl : n = 2 ^ 23 - 1 := by omega
      decide
  · obtain ⟨e, f, hf, rfl⟩ : ∃ e f, f < 2 ^ 23 ∧ n = 2 ^ 23 * (e + 1) + f :=
      ⟨n / 2 ^ 23 - 1, n % 2 ^ 23, by omega, by omega⟩
    have hpos := Nat.two_pow_pos e
    by_cases hlast : f + 1 < 2 ^ 23
    · rw [Nat.add_assoc, f32Magnitude_of_normal hf, f32Magnitude_of_normal hlast]
      exact Nat.mul_lt_mul_of_pos_right (by omega) hpos
    · have hcarry : 2 ^ 23 * (e + 1) + f + 1 = 2 ^ 23 * (e + 1 + 1) + 0 := by omega
      rw [hcarry, f32Magnitude_of_normal hf, f32Magnitude_of_normal (by decide), Nat.pow_succ, Nat.add_zero]
      calc (2 ^ 23 + f) * 2 ^ e < (2 ^ 23 * 2) * 2 ^ e := Nat.mul_lt_mul_of_pos_right (by omega) hpos
        _ = 2 ^ 23 * (2 ^ e * 2) := by ring

/-- 700.0 (R6, R156). -/
theorem f32Magnitude_700 : f32Magnitude 0x442F0000 = 700 * 2 ^ 149 := by
  rw [show 0x442F0000 = 2 ^ 23 * (135 + 1) + 0x2F0000 by decide, f32Magnitude_of_normal (by decide)]
  norm_num

/-- 1100.0 (R6, R156). -/
theorem f32Magnitude_1100 : f32Magnitude 0x44898000 = 1100 * 2 ^ 149 := by
  rw [show 0x44898000 = 2 ^ 23 * (136 + 1) + 0x098000 by decide, f32Magnitude_of_normal (by decide)]
  norm_num

/-! ### Patterns -/

/-- The value of a pattern: its sign is bit 31, its magnitude that of the other 31 bits (R9). -/
theorem f32Units_eq (v : Word32) :
    f32Units v =
      if 2 ^ 31 ≤ v.toNat then -(f32Magnitude (v.toNat % 2 ^ 31) : Int) else f32Magnitude (v.toNat % 2 ^ 31) := by
  have hsign : v.getLsbD 31 = decide (2 ^ 31 ≤ v.toNat) := (BitVec.msb_eq_getLsbD_last v).symm.trans v.msb_eq_decide
  have hexp : (v.extractLsb' 23 8).toNat = v.toNat % 2 ^ 31 / 2 ^ 23 := by
    rw [BitVec.extractLsb'_toNat, Nat.shiftRight_eq_div_pow]
    omega
  have hfrac : (v.extractLsb' 0 23).toNat = v.toNat % 2 ^ 31 % 2 ^ 23 := by
    rw [BitVec.extractLsb'_toNat, Nat.shiftRight_zero]
    omega
  simp only [f32Units, f32Magnitude, hsign, hexp, hfrac, decide_eq_true_eq]
  push_cast
  rfl

theorem f32Units_of_nonneg {v : Word32} (h : v.toNat < 2 ^ 31) : f32Units v = f32Magnitude v.toNat := by
  rw [f32Units_eq, if_neg (Nat.not_le.2 h), Nat.mod_eq_of_lt h]

theorem f32Units_nonpos_of_neg {v : Word32} (h : 2 ^ 31 ≤ v.toNat) : f32Units v ≤ 0 := by
  rw [f32Units_eq, if_pos h]
  omega

theorem f32Finite_of_lt {v : Word32} (h : v.toNat < 0x7F800000) : f32Finite v := by
  intro hall
  have hexp := congrArg BitVec.toNat hall
  rw [BitVec.extractLsb'_toNat, Nat.shiftRight_eq_div_pow] at hexp
  change _ = 255 at hexp
  omega

/-- Settles O48: without a sign the value grows with the pattern, from 700.0 at the lower bound to 1100.0 at the upper
one; with a sign it is not positive. -/
theorem airPressureCheckIsTheRealComparison : Obligations.AirPressureCheckIsTheRealComparison := by
  intro v
  refine ⟨airPressureOk_iff, airPressureOk_iff.trans ?_⟩
  by_cases hsign : v.toNat < 2 ^ 31
  · have hlo : (700 * 2 ^ 149 : Int) ≤ f32Units v ↔ 0x442F0000 ≤ v.toNat := by
      rw [f32Units_of_nonneg hsign, ← f32Magnitude_strictMono.le_iff_le, f32Magnitude_700]
      norm_cast
    have hhi : f32Units v ≤ (1100 * 2 ^ 149 : Int) ↔ v.toNat ≤ 0x44898000 := by
      rw [f32Units_of_nonneg hsign, ← f32Magnitude_strictMono.le_iff_le, f32Magnitude_1100]
      norm_cast
    rw [hlo, hhi]
    exact ⟨fun h => ⟨f32Finite_of_lt (by omega), h⟩, And.right⟩
  · have hneg := f32Units_nonpos_of_neg (Nat.not_lt.1 hsign)
    exact ⟨fun h => by omega, fun h => by omega⟩

/-! ### Decoded patterns -/

/-- A decoded pattern is its 24 received bits under a zero byte (R149, R153). -/
theorem f32le3_toNat (b0 b1 b2 : Byte) : (f32le3 b0 b1 b2).toNat = (b2 ++ b1 ++ b0).toNat := by
  simp only [f32le3, BitVec.toNat_append, BitVec.ofNat_eq_ofNat, BitVec.toNat_zero, Nat.zero_shiftLeft, Nat.zero_or]

/-- Settles O49: a decoded pattern is below the pattern 2^24, whose value is 2^-125, that is 2^24 units; both bounds of the
setter's range and the sentinel lie above it. -/
theorem decodedAirPressureIsNeverTheSentinel : Obligations.DecodedAirPressureIsNeverTheSentinel := by
  intro b0 b1 b2
  have hread := f32le3_toNat b0 b1 b2
  have hlt : (f32le3 b0 b1 b2).toNat < 2 ^ 24 := hread ▸ (b2 ++ b1 ++ b0).isLt
  have hunits : f32Units (f32le3 b0 b1 b2) = f32Magnitude (f32le3 b0 b1 b2).toNat := f32Units_of_nonneg (by omega)
  have htop : f32Magnitude (2 ^ 24) = 2 ^ 24 := by decide
  refine ⟨f32le3_topByte b0 b1 b2, f32Finite_of_lt (by omega), ?_, ?_, fun hsentinel => ?_, ?_, ?_⟩
  · rw [hunits]
    exact Int.natCast_nonneg _
  · rw [hunits]
    have := f32Magnitude_strictMono hlt
    omega
  · have := congrArg BitVec.toNat hsentinel
    change _ = 0xC479C000 at this
    omega
  · exact Bool.eq_false_iff.2 (mt airPressureOk_iff.1 (by omega))
  · apply BitVec.eq_of_toNat_eq
    rw [BitVec.extractLsb'_toNat, Nat.shiftRight_zero, hread]
    exact Nat.mod_eq_of_lt (b2 ++ b1 ++ b0).isLt

end Sys2Proof.Machine
end

section
/-! PROOFS. The rate window and the cache (spec/42_operations.md R145 to R148): live readings are apart, and a reading
inside the window of a live one repeats its value. -/

namespace Sys2Proof.Machine

/-- Only a command whose checks pass transmits (R116, R140). -/
theorem exchanges_of_sent {i : Instr} {s t : State} (hexec : exec i s = .next t) (hlog : t.txlog ≠ s.txlog) :
    Exchanges s i := by
  by_contra hx
  exact hlog (endedAlone_of_not_exchanges hx hexec).writes.txlog

/-- A reading command that exchanges has found its sample outside the window (R145). -/
theorem Exchanges.outsideWindow {i : Instr} {s : State} (hx : Exchanges s i) (hreads : Reads i) :
    4000 ≤ s.sample.clock - s.lastread := by
  obtain rfl | rfl := hreads <;> exact hx

/-- Settles O50: the first reading leaves its sample in `LASTREAD`, and the second one's rate check measures from
there. -/
theorem liveReadsAreFourSecondsApart : Obligations.LiveReadsAreFourSecondsApart := by
  intro i j s t u v hi hj hfirst hsent hsame hsecond hsent'
  obtain ⟨-, -, -, hlastread⟩ := (exchanges_of_sent hfirst hsent).kept hfirst
  have hout := (exchanges_of_sent hsecond hsent').outsideWindow hj
  rwa [hsame, hlastread, if_pos hi] at hout

/-- A gas reading that is over has left its value in `GAS` and `RESULT`, or failed with `RESULT` 0 and `GAS` as it was
(R147, R148, R157). -/
theorem RunsExchange.gasConcentration {s t : State} (h : RunsExchange .getGasConcentration s t) (hover : t.busy = false) :
    (t.status = 0 ∧ t.result = t.gas.setWidth 32) ∨ (t.status ≠ 0 ∧ t.result = 0 ∧ t.gas = s.gas) := by
  rcases h.ends.1 with hsuccess | htimeout | hwaiting
  · have hend := hsuccess.gasConcentration
    split at hend
    next => exact .inl ⟨hend.1.status, hend.1.result⟩
    next => exact .inr ⟨by rw [hend.1.status]; decide, hend.1.result, hend.2⟩
  · exact .inr ⟨by rw [htimeout.ended.status]; decide, htimeout.ended.result, htimeout.decoded.gas⟩
  · exact absurd (hwaiting.busy.symm.trans hover) (by decide)

/-- Settles O51: the second reading returns `GAS`, which is what the first one left there. -/
theorem gasReadInsideTheWindowRepeatsTheValue : Obligations.GasReadInsideTheWindowRepeatsTheValue := by
  intro s t u hfirst hover hgas _ hin
  have hruns : RunsExchange .getGasConcentration s t :=
    hfirst.imp_left fun ⟨hexec, hlog⟩ => ⟨exchanges_of_sent hexec hlog, hexec⟩
  obtain ⟨v, hexec, hended, hsame⟩ := 
    exec_of_rateWindow (i := .getGasConcentration) (r := u.gas.setWidth 32) hin rfl
  rw [hgas] at hended
  refine ⟨v, hexec, hsame.rest.environment.txlog, fun hok => ?_, fun hfailed => ?_⟩
  · rcases hruns.gasConcentration hover with ⟨-, hresult⟩ | ⟨hbad, -⟩
    · exact ⟨hresult, hresult ▸ hended⟩
    · exact absurd hok hbad
  · rcases hruns.gasConcentration hover with ⟨hok, -⟩ | ⟨-, hresult, hold⟩
    · exact absurd hok hfailed
    · exact ⟨hresult, hold ▸ hended⟩

end Sys2Proof.Machine
end

section
/-! PROOFS. Which steps answer a next state (spec/43_config.md R182, spec/60_exceptions.md R219): the reset input acts, a
command that waits goes on, and every command but `ISCONNECTED` is executed. -/

namespace Sys2Proof.Machine

/-- Every arm of `exec` but that of `ISCONNECTED` answers a next state (R140, R182). -/
theorem exec_next_of_ne_isConnected {i : Instr} (hi : i ≠ .isConnected) (s : State) : ∃ t, exec i s = .next t := by
  cases i with
  | isConnected => exact absurd rfl hi
  | _ => exact ⟨_, rfl⟩

/-- Settles O10. -/
theorem isConnectedIsRefused : Obligations.IsConnectedIsRefused := fun _ => rfl

/-- The reset input acts in every state, busy or not (R240, R242). -/
theorem step_of_reset {s : State} {rest : List Input} (hinputs : s.inputs = .reset :: rest) :
    step s = .next { s with inputs := rest }.resetInput := by
  simp [step, busyStep, idleStep, hinputs]

/-- A waiting command goes on in the next step, unless the reset input acts (R119, R246). -/
theorem Waiting.step_next {s : State} (h : Waiting s) (hbusy : s.busy = true)
    (hnoReset : ∀ rest, s.inputs ≠ .reset :: rest) : ∃ t, step s = .next t := by
  obtain ⟨i, hcmd, -, -⟩ := h.command
  have hres : Resumes i s := ⟨h, hbusy, hcmd, hnoReset⟩
  obtain ⟨finish, -, hstep⟩ := hres.step_next
  exact ⟨_, hstep⟩

/-- The Engine's answer to a word: an illegal one raises, a legal one is executed, and only `ISCONNECTED`'s is refused
(R60, R67, R182). -/
theorem runWord_next_or_refused (w : CommandWord) (s : State) :
    (∃ t, runWord w s = .next t) ∨ (runWord w s = .refused .connectionQuery ∧ decode w = .ok .isConnected) := by
  cases hdecode : decode w with
  | error e => exact .inl ⟨s.illegalWord w, by simp [runWord, hdecode]⟩
  | ok i =>
    rw [runWord_of_legal hdecode]
    by_cases hi : i = .isConnected
    · subst hi
      exact .inr ⟨isConnectedIsRefused s, rfl⟩
    · exact .inl (exec_next_of_ne_isConnected hi s)

/-- Settles O15: by the Host's next input, and by `BUSY`, which under the invariant says that a command waits. -/
theorem invariantStatesNeverFault : Obligations.InvariantStatesNeverFault := by
  intro s hinv
  by_cases hreset : ∃ rest, s.inputs = .reset :: rest
  · obtain ⟨rest, hinputs⟩ := hreset
    exact .inl ⟨_, step_of_reset hinputs⟩
  cases hbusy : s.busy with
  | true => exact .inl ((hinv.waiting hbusy).step_next hbusy (not_exists.1 hreset))
  | false =>
    rw [step_of_not_busy hbusy]
    match hinputs : s.inputs with
    | [] => exact .inl ⟨_, idleStep_of_no_input hinputs⟩
    | .reset :: rest => exact absurd ⟨rest, hinputs⟩ hreset
    | .command w :: rest =>
      rw [idleStep_of_word hinputs]
      exact (runWord_next_or_refused w _).imp_right fun ⟨hrefused, hdecode⟩ => ⟨hrefused, w, rest, rfl, hdecode⟩

end Sys2Proof.Machine
end

section
/-! PROOFS. The configuration commands, the status readers and the engine primitives (spec/43_config.md R181 to R200):
how each ends, and what it leaves unchanged. -/

namespace Sys2Proof.Machine

/-! ### How a command ends that writes registers only -/

/-- A command that writes nothing but the host-interface registers and `PHASE` (R27, R60). -/
theorem exec_of_writes_only_result {i : Instr} {s : State} {r : Word32} {st : Byte}
    (hexec : exec i s = .next { s with cmd := encode i, result := r, status := st, phase := .idle, busy := false }) :
    ∃ t, exec i s = .next t ∧ Ended i r st t ∧ SameOutsideHostInterface s t :=
  ⟨_, hexec, ⟨rfl, rfl, rfl, rfl, rfl⟩, sameOutsideHostInterface_of_writes s (encode i) r st .idle false⟩

/-- A command whose lengths or offset do not fit the buffers raises `IllegalCommand` and changes nothing else (R197 to
R200, R216). -/
theorem exec_of_out_of_bounds {i : Instr} {s u : State} {c : Prop} [Decidable c] (hc : ¬ c)
    (hexec : exec i s = .next (if c then u else (s.issue i).raise .illegal 0)) :
    ∃ t, exec i s = .next t ∧ Ended i 0 4 t ∧ SameOutsideHostInterface s t := by
  rw [if_neg hc] at hexec
  exact exec_of_writes_only_result hexec

/-- The configuration registers too may be written without any effect on the rest (R10). -/
theorem sameOutsideConfig_of_writes (s : State) (a : Byte) (sp : Bool) (ms : Time) (f : Bool) (w : CommandWord)
    (r : Word32) (st : Byte) (ph : Phase) (b : Bool) :
    SameOutsideConfig s
      { s with
        addr := a, specific := sp, timeout := ms, suppress := f
        cmd := w, result := r, status := st, phase := ph, busy := b } where
  cached := ⟨rfl, rfl, rfl⟩
  crc := ⟨rfl, rfl, rfl⟩
  sequencer := ⟨rfl, rfl, rfl, rfl, rfl⟩
  tx := fun _ => rfl
  resp := fun _ => rfl
  environment := ⟨rfl, rfl, rfl, rfl, rfl, rfl, rfl⟩
  host := ⟨rfl, rfl⟩

/-- A command that writes configuration registers besides, and ends without an error (R181 to R190). -/
theorem exec_of_writes_only_config {i : Instr} {s : State} {a : Byte} {sp : Bool} {ms : Time} {f : Bool} {r : Word32}
    (hexec : exec i s = .next
      { s with
        addr := a, specific := sp, timeout := ms, suppress := f
        cmd := encode i, result := r, status := 0, phase := .idle, busy := false }) :
    ∃ t, exec i s = .next t ∧ Ended i r 0 t ∧ t.addr = a ∧ t.specific = sp ∧ t.timeout = ms ∧ t.suppress = f ∧
      SameOutsideConfig s t :=
  ⟨_, hexec, ⟨rfl, rfl, rfl, rfl, rfl⟩, rfl, rfl, rfl, rfl,
    sameOutsideConfig_of_writes s a sp ms f (encode i) r 0 .idle false⟩

/-! ### The configuration commands -/

/-- Settles O23. -/
theorem beginValidatesAndStoresTheAddress : Obligations.BeginValidatesAndStoresTheAddress := by
  intro a s
  refine ⟨fun hle => ?_, fun hgt => exec_of_check_fails (mt addressOk_iff.1 (by omega)) rfl⟩
  exact exec_of_writes_only_config (congrArg _ (if_pos (addressOk_iff.2 hle)))

/-- Settles O24. -/
theorem addressingModeIsSetAndReadBack : Obligations.AddressingModeIsSetAndReadBack := by
  intro s
  refine ⟨?_, ?_, exec_of_writes_only_result rfl⟩
  · obtain ⟨t, hexec, hended, haddr, hspecific, hrest⟩ :=
      exec_of_writes_only_config (i := .setGenericAddress) (s := s) rfl
    exact ⟨t, hexec, hended, hspecific, haddr, hrest⟩
  · obtain ⟨t, hexec, hended, haddr, hspecific, hrest⟩ :=
      exec_of_writes_only_config (i := .setSpecificAddress) (s := s) rfl
    exact ⟨t, hexec, hended, hspecific, haddr, hrest⟩

/-- Settles O25. -/
theorem timeoutIsSetAndReadBack : Obligations.TimeoutIsSetAndReadBack := by
  intro s
  refine ⟨fun ms => ?_, exec_of_writes_only_result rfl⟩
  obtain ⟨t, hexec, hended, haddr, hspecific, htimeout, hrest⟩ :=
    exec_of_writes_only_config (i := .setTimeout ms) (s := s) rfl
  exact ⟨t, hexec, hended, htimeout, haddr, hspecific, hrest⟩

/-- Settles O26. -/
theorem suppressFlagIsSetAndReadBack : Obligations.SuppressFlagIsSetAndReadBack := by
  intro s
  refine ⟨fun f => ?_, exec_of_writes_only_result rfl⟩
  obtain ⟨t, hexec, hended, haddr, hspecific, htimeout, hsuppress, hrest⟩ :=
    exec_of_writes_only_config (i := .suppressError f) (s := s) rfl
  exact ⟨t, hexec, hended, hsuppress, haddr, hspecific, htimeout, hrest⟩

/-- Settles O27: each reader writes its register's value to `RESULT`, and `LASTERROR` the old `STATUS` to `STATUS`. -/
theorem statusReadersReturnTheirRegisters : Obligations.StatusReadersReturnTheirRegisters := by
  intro s
  have hlastError : exec .lastError s = .next
      { s with
        cmd := encode .lastError, result := s.status.setWidth 32, status := s.status, phase := .idle, busy := false } :=
    rfl
  exact ⟨exec_of_writes_only_result rfl, exec_of_writes_only_result rfl, exec_of_writes_only_result hlastError⟩

/-! ### The buffer accesses -/

/-- Settles O22. -/
theorem rdbufReturnsOneByte : Obligations.RdbufReturnsOneByte := by
  intro i s
  refine ⟨fun hlt => ?_, fun hge => exec_of_out_of_bounds (Nat.not_lt.2 hge) rfl⟩
  exact exec_of_writes_only_result (congrArg _ (if_pos hlt))

/-- What storing one byte in `TXBUF` leaves unchanged (R44). -/
theorem State.txWrite_same (s : State) (k : Nat) (b : Byte) :
    SameBytes .respbuf s (s.txWrite k b) ∧ SameConfig s (s.txWrite k b) ∧ SameCached s (s.txWrite k b) ∧
      SameCrc s (s.txWrite k b) ∧ SameSequencer s (s.txWrite k b) ∧ SameEnvironment s (s.txWrite k b) ∧
      SameHost s (s.txWrite k b) := by
  obtain ⟨m, hm⟩ := s.txWrite_eq k b
  rw [hm]
  exact ⟨fun _ => rfl, ⟨rfl, rfl, rfl, rfl⟩, ⟨rfl, rfl, rfl⟩, ⟨rfl, rfl, rfl⟩, ⟨rfl, rfl, rfl, rfl, rfl⟩,
    ⟨rfl, rfl, rfl, rfl, rfl, rfl, rfl⟩, ⟨rfl, rfl⟩⟩

/-- `WRBUF i, b` with an offset inside the buffer (R199). -/
theorem exec_wrbuf_of_lt {i : Byte} (hi : i.toNat < 24) (b : Byte) (s : State) :
    exec (.wrbuf i b) s = .next (((s.issue (.wrbuf i b)).txWrite i.toNat b).complete 0) :=
  congrArg _ (if_pos hi)

/-- Settles O21: the byte is stored in the state that the issue leaves, and the end writes no buffer. -/
theorem wrbufStoresOneByte : Obligations.WrbufStoresOneByte := by
  intro i b s
  refine ⟨fun hlt => ?_, fun hge => exec_of_out_of_bounds (Nat.not_lt.2 hge) rfl⟩
  have hread (a : Nat) : (((s.issue (.wrbuf i b)).txWrite i.toNat b).complete 0).memRead .txbuf a =
      if a = i.toNat then b else s.memRead .txbuf a := by
    rw [State.complete_memRead, State.txWrite_memRead, State.issue_memRead]
    exact if_congr ⟨fun h => h.2.1, fun h => ⟨rfl, h, hlt⟩⟩ rfl rfl
  have hcmd : ((s.issue (.wrbuf i b)).txWrite i.toNat b).cmd = encode (.wrbuf i b) := State.txWrite_cmd _ _ _
  obtain ⟨hresp, hconfig, hcached, hcrc, hsequencer, henvironment, hhost⟩ :=
    (s.issue (.wrbuf i b)).txWrite_same i.toNat b
  exact ⟨_, exec_wrbuf_of_lt hlt b s, ⟨hcmd, rfl, rfl, rfl, rfl⟩, (hread _).trans (if_pos rfl),
    fun a ha => (hread a).trans (if_neg ha), hresp, { hconfig with }, { hcached with }, { hcrc with },
    { hsequencer with }, { henvironment with }, { hhost with }⟩

/-! ### The engine primitives -/

/-- Settles O20: the unit computes over the bytes that the issue leaves in `TXBUF` and writes its own registers. -/
theorem crc16CommandReturnsTheCrcOfTxbuf : Obligations.Crc16CommandReturnsTheCrcOfTxbuf := by
  intro n s
  refine ⟨fun hle => ?_, fun hgt => exec_of_out_of_bounds (Nat.not_le.2 hgt) rfl⟩
  have hended := crc16_ended n (halfResult (crc16 (s.bytes .txbuf n.toNat))) s
  have hcrc : ((s.issue (.crc16 n)).crcUnit n.toNat).crcResult = crc16 (s.bytes .txbuf n.toNat) :=
    State.crcUnit_result _ _
  refine ⟨_, (exec_crc16 n s).trans (execCrc16_of_le hle s), hended, hcrc, ?_⟩
  obtain ⟨k, hk⟩ := (s.issue (.crc16 n)).crcUnit_eq n.toNat
  rw [hk]
  exact ⟨⟨rfl, rfl, rfl, rfl⟩, ⟨rfl, rfl, rfl⟩, ⟨rfl, rfl, rfl, rfl, rfl⟩, fun _ => rfl, fun _ => rfl,
    ⟨rfl, rfl, rfl, rfl, rfl, rfl, rfl⟩, ⟨rfl, rfl⟩⟩

/-- Settles O28: `REQUEST` is a command with an exchange whose frame is what `TXBUF` holds and whose response is not
decoded. -/
theorem requestExchangesTheFrameInTxbuf : Obligations.RequestExchangesTheFrameInTxbuf := by
  intro cl rl s
  have hi : AnswersOnly (.request cl rl) := ⟨nofun, nofun, nofun⟩
  have hx (h4 : 4 ≤ cl.toNat) (h24 : cl.toNat ≤ 24) (hn : rl.toNat ≤ 24) : Exchanges s (.request cl rl) := ⟨h4, h24, hn⟩
  exact ⟨fun hout => exec_of_out_of_bounds (mt requestLengthsOk_iff.1 (by omega)) rfl, fun h4 h24 hn =>
    ⟨(hx h4 h24 hn).answered_of_answersOnly hi, fun _ => (hx h4 h24 hn).timedOut_of_not_reads hi.not_reads⟩⟩

end Sys2Proof.Machine
end

section
/-! PROOFS. The reset input (spec/70_reset_and_hazards.md R240 to R242): what it restores and what it keeps. -/

namespace Sys2Proof.Machine

/-- Settles O12: the step is the reset itself, busy or not, and the state it gives is written out field by field. -/
theorem resetInputRestoresTheResetValues : Obligations.ResetInputRestoresTheResetValues := by
  intro s rest hinputs
  exact ⟨{ s with inputs := rest }.resetInput, step_of_reset hinputs,
    rfl, rfl, rfl, rfl, rfl, rfl, rfl, rfl, rfl, rfl, rfl, rfl, rfl, rfl⟩

end Sys2Proof.Machine
end
